-- ==== Sys2Proof/Word.lean ====
section
/-! DEFINITION. The word types of the machine and the generic containers its state is made of: words, bytes, and tables of
structured values keyed by a decidable key. Only the plainest arithmetic stands here. -/

namespace Sys2Proof

/-- A 64-bit register or vault word (00 R2-R3). -/
abbrev Word := BitVec 64

/-- One byte; every memory of the device is byte addressed and little-endian (00 R3). -/
abbrev Byte := BitVec 8

/-- The bit field `[lo + width - 1 : lo]` of a number (00 R7). -/
def fld (w lo width : Nat) : Nat := w / 2 ^ lo % 2 ^ width

/-- A number whose two's-complement reading at `width` bits is wanted. -/
def signed (width n : Nat) : Int :=
  if 2 ^ (width - 1) ≤ n % 2 ^ width then (n % 2 ^ width : Nat) - (2 ^ width : Nat) else (n % 2 ^ width : Nat)

/-- A 64-bit word from an integer, wrapped (00 R7: the low bits are kept). -/
def wordOfInt (x : Int) : Word := BitVec.ofInt 64 x

/-- A table from keys to values, as plain data: the first entry of a key is its value. -/
abbrev Table (κ α : Type) := List (κ × α)

/-- The value of a key, `dflt` when the table does not list it. -/
def Table.get {κ α : Type} [DecidableEq κ] (dflt : α) : Table κ α → κ → α
  | [], _ => dflt
  | (k, v) :: t, x => if k = x then v else Table.get dflt t x

/-- Sets the value of a key in place, or appends it. -/
def Table.put {κ α : Type} [DecidableEq κ] : Table κ α → κ → α → Table κ α
  | [], x, v => [(x, v)]
  | (k, w) :: t, x, v => if k = x then (k, v) :: t else (k, w) :: Table.put t x v

/-- Removes every entry of a key. -/
def Table.del {κ α : Type} [DecidableEq κ] (t : Table κ α) (x : κ) : Table κ α := t.filter (fun e => e.1 ≠ x)

/-- A sparse map from numbers to values in one canonical form: keys strictly rising, and no entry equal to what an unlisted key holds. -/
def Sparse.get {α : Type} (dflt : α) : List (Nat × α) → Nat → α
  | [], _ => dflt
  | (k, v) :: t, x => if k = x then v else Sparse.get dflt t x

/-- Sets a key of a sparse map; setting the default removes the entry. -/
def Sparse.set {α : Type} [DecidableEq α] (dflt : α) (m : List (Nat × α)) (x : Nat) (v : α) : List (Nat × α) :=
  m.filter (fun e => e.1 < x) ++ (if v = dflt then [] else [(x, v)]) ++ m.filter (fun e => x < e.1)

/-- The keys of a list rise strictly from a bound. -/
def Sparse.rising {α : Type} : Nat → List (Nat × α) → Bool
  | _, [] => true
  | lo, (k, _) :: t => decide (lo ≤ k) && Sparse.rising (k + 1) t

/-- The canonical form of a sparse map. -/
def Sparse.wf {α : Type} [DecidableEq α] (dflt : α) (m : List (Nat × α)) : Bool :=
  Sparse.rising 0 m && m.all (fun e => decide (e.2 ≠ dflt))

/-- The keys a table lists, in order. -/
def Table.keys {κ α : Type} (t : Table κ α) : List κ := t.map Prod.fst

/-- Replaces an element of a fixed number of like things; an index outside it changes nothing. -/
def setNth {α : Type} {n : Nat} (v : Vector α n) (i : Nat) (x : α) : Vector α n := v.setIfInBounds i x

/-- A fixed number of like things from a function of their number. -/
def tabulate {α : Type} (n : Nat) (f : Nat → α) : Vector α n := ⟨⟨(List.range n).map f⟩, by simp⟩

/-- Replaces the n-th element of a list, when there is one. -/
def setItem {α : Type} : List α → Nat → α → List α
  | [], _, _ => []
  | _ :: t, 0, v => v :: t
  | h :: t, n + 1, v => h :: setItem t n v

/-- The numbers `lo, lo + 1, …` of a range of length `n`. -/
def rangeFrom (lo n : Nat) : List Nat := (List.range n).map (lo + ·)

end Sys2Proof
end

