-- ==== Sys2Proof/Config.lean ====
section
/-! DEFINITION. What the manual leaves open or names by a standard only: free values, applied to the counter the state holds, and the
cryptographic functions, as functions with no body. -/

namespace Sys2Proof.Config

/-- A free byte (log entry 5). -/
opaque freeByte : Nat → Byte

/-- A free choice between two allowed results (log entry 5). -/
opaque freeBit : Nat → Bool

/-- A free word (log entry 5). -/
opaque freeWord : Nat → Word

/-- The SPDM responder's bytes for a request kind and its data (18 R389; log entry 8). -/
opaque spdmAnswer : Nat → List Byte → List Byte

/-- The links of a package that a slot takes from one of its stations towards a package and die, gallery links and those by which it leaves: by its
hop, from 0 to 7, and for a hop by a number from 0 to 15 in the order in which they are tried (15 R342-R343; log entry 72). The manual gives no
numbering. -/
opaque linkOf : Nat → Nat → Nat → Nat → Nat → Nat → Nat

/-- Whether stage 7 of the bring-up of a package has passed by a cycle, as the packages of its ring know it (18 R396; log entry 93). -/
opaque stage7 : Nat → Nat → Bool

/-- For how many reference cycles a request to a package and die, sent in a cycle, is held at that die while it resets, which does not advance
its timeout (16 R364; log entry 83). -/
opaque heldFor : Nat → Nat → Nat → Nat

/-- Where an image of the boot chain is loaded in supervisor memory, by its number (18 R388; log entry 95): the manual gives no address. -/
opaque imageBase : Nat → Nat

/-- Whether stage 7 accepts the peer of a link by the measurements it reports (18 R391; log entry 95): the manual gives no measure to check them against. -/
opaque peerAccepted : Nat → List (BitVec 384) → Bool

/-- The address of the journal's ring in supervisor memory (13 R275; log entry 84): the manual gives none. -/
opaque journalBase : Nat

/-- The bytes of stream buffer a stage die has (01 R23-R24; log entry 22): the manual gives no figure. -/
opaque streamBuffer : Nat

end Sys2Proof.Config
end

