-- ==== Sys2Proof/Syntax.lean ====
section
/-! DEFINITION. The abstract syntax: one constructor for each row of spec/opcode_table.json, and the small types its operands
use. An instruction word's operands keep the numbers of its bit fields (05 R99-R120); an event row carries the data that comes
with the event. Which values are admissible stands in Sys2Proof/WellFormed.lean. -/

namespace Sys2Proof

/-- The guard of an instruction word: the selector G and the inversion N (05 R101). -/
structure Guard where
  sel : Nat
  neg : Nat
deriving DecidableEq, Repr

/-- The five kinds of agent of a core (04 R74): the SCU context of a slot and its four engine streams. -/
inductive AgentKind where
  | scu | ve | me | ce | xe
deriving DecidableEq, Repr

/-- A core of the package (01 R10). -/
structure CoreId where
  die : Nat
  core : Nat
deriving DecidableEq, Repr

/-- An SCU context of a core: slots 0 to 3, and 4 for the docent (01 R13). -/
structure CtxId where
  die : Nat
  core : Nat
  ctx : Nat
deriving DecidableEq, Repr

/-- One agent: a context, or one engine's stream of a slot (04 R74). -/
structure AgentId where
  die : Nat
  core : Nat
  slot : Nat
  kind : AgentKind
deriving DecidableEq, Repr

/-- What raised an alarm: an agent's unit, the conservator itself, or the Registrar, the die TLB or the mesh control of the die
(16 R345-R346). -/
inductive AlarmSrc where
  | unit (kind : AgentKind) (slot : Nat)
  | conservator
  | dieControl
deriving DecidableEq, Repr

/-- Where an inbound access comes from: the fabric, with the package id its slot carries, or a UALink station, whose UAST register names
the source package and the domain key (15 R331, R344). -/
inductive InSrc where
  | fabric (spkg : Nat)
  | ualink (station : Nat)
deriving DecidableEq, Repr

/-- The bytes an external interface writes, and whether the interface is a UALink station (15 R344). -/
structure ExtData where
  ualink : Bool
  bytes : List Byte
deriving DecidableEq, Repr

/-- An access that reaches a target die or a bridge from the fabric (15 R336, R341); to a bridge with the station of the package it comes from. -/
inductive InReq where
  | load (addr len : Nat)
  | store (addr : Nat) (data : List Byte)
  | atomic (addr size fn : Nat) (v : Word)
  | cas (addr size : Nat) (expected new : Word)
  | bridge (station tpkg tdie addr size id : Nat) (clockwise : Bool) (v : Word)
deriving DecidableEq, Repr

/-- The conservator tables the boot chain loads (16 R363, 17 R378, 16 R351). -/
structure ConsTables where
  tdlg : Word
  dshare : Nat
  mbhold : Vector Nat 4
  wdt : Vector Nat 5
  caps : Vector Nat 5
  rates : Vector Nat 5
  rollPeriod : Nat
deriving DecidableEq, Repr

/-- What a write of DOCUPD is for (18 R393): a docent's image, or conservator tables. -/
inductive UpdImage where
  | docent
  | tables
deriving DecidableEq, Repr

/-- What a cold start finds: whether the input is good, the stored charge in mJ (17 R386), and the pins. -/
structure ColdBoot where
  inputGood : Bool
  charge : Nat
  pins : Nat
deriving DecidableEq, Repr

/-- The instructions, packets and events of the opcode table, in its order. -/
inductive Instr where
  /-- ADD (R134): Writes the 64-bit wrapped sum of g[a] and g[b] to g[d]. -/
  | add (gd : Guard) (d a b : Nat)
  /-- SUB (R134): Writes the 64-bit wrapped difference g[a] minus g[b] to g[d]. -/
  | sub (gd : Guard) (d a b : Nat)
  /-- AND (R134): Writes the bitwise AND of g[a] and g[b] to g[d]. -/
  | and (gd : Guard) (d a b : Nat)
  /-- OR (R134): Writes the bitwise OR of g[a] and g[b] to g[d]. -/
  | or (gd : Guard) (d a b : Nat)
  /-- XOR (R134): Writes the bitwise XOR of g[a] and g[b] to g[d]. -/
  | xor (gd : Guard) (d a b : Nat)
  /-- ANDN (R134): Writes g[a] AND NOT g[b] to g[d]. -/
  | andn (gd : Guard) (d a b : Nat)
  /-- SHL (R134): Shifts g[a] left by g[b][5:0] into g[d]. -/
  | shl (gd : Guard) (d a b : Nat)
  /-- SHR (R134): Shifts g[a] right logically by g[b][5:0] into g[d]. -/
  | shr (gd : Guard) (d a b : Nat)
  /-- SHA (R134): Shifts g[a] right arithmetically by g[b][5:0] into g[d]. -/
  | sha (gd : Guard) (d a b : Nat)
  /-- ROT (R134): Rotates g[a] right by g[b][5:0] into g[d]. -/
  | rot (gd : Guard) (d a b : Nat)
  /-- MIN (R134): Writes the signed lesser of g[a] and g[b] to g[d]. -/
  | min (gd : Guard) (d a b : Nat)
  /-- MAX (R134): Writes the signed greater of g[a] and g[b] to g[d]. -/
  | max (gd : Guard) (d a b : Nat)
  /-- MINN (R134): Writes the natural lesser of g[a] and g[b] to g[d]. -/
  | minn (gd : Guard) (d a b : Nat)
  /-- MAXN (R134): Writes the natural greater of g[a] and g[b] to g[d]. -/
  | maxn (gd : Guard) (d a b : Nat)
  /-- CLZ (R134): Writes the count of leading zero bits of g[a] to g[d]. -/
  | clz (gd : Guard) (d a : Nat)
  /-- CTZ (R134): Writes the count of trailing zero bits of g[a] to g[d]. -/
  | ctz (gd : Guard) (d a : Nat)
  /-- POPC (R134): Writes the count of one bits of g[a] to g[d]. -/
  | popc (gd : Guard) (d a : Nat)
  /-- MUL (R138): Writes the low 64 bits of g[a] times g[b] to g[d]. -/
  | mul (gd : Guard) (d a b : Nat)
  /-- MULH (R138): Writes the high 64 bits of the signed product to g[d]. -/
  | mulh (gd : Guard) (d a b : Nat)
  /-- MULHN (R138): Writes the high 64 bits of the natural product to g[d]. -/
  | mulhn (gd : Guard) (d a b : Nat)
  /-- DIV (R138): Writes the signed quotient rounded towards zero, with fixed edge cases, to g[d]. -/
  | div (gd : Guard) (d a b : Nat)
  /-- DIVN (R138): Writes the natural quotient, with fixed edge cases, to g[d]. -/
  | divn (gd : Guard) (d a b : Nat)
  /-- REM (R138): Writes the signed remainder to g[d]. -/
  | rem (gd : Guard) (d a b : Nat)
  /-- REMN (R138): Writes the natural remainder to g[d]. -/
  | remn (gd : Guard) (d a b : Nat)
  /-- ADDI (R135): Adds a sign-extended 10-bit immediate to g[a] into g[d]. -/
  | addi (gd : Guard) (d a i : Nat)
  /-- ANDI (R135): ANDs g[a] with a sign-extended immediate into g[d]. -/
  | andi (gd : Guard) (d a i : Nat)
  /-- ORI (R135): ORs g[a] with a sign-extended immediate into g[d]. -/
  | ori (gd : Guard) (d a i : Nat)
  /-- XORI (R135): XORs g[a] with a sign-extended immediate into g[d]. -/
  | xori (gd : Guard) (d a i : Nat)
  /-- SHLI (R136): Shifts g[a] left by an immediate amount into g[d]. -/
  | shli (gd : Guard) (d a s : Nat)
  /-- SHRI (R136): Shifts g[a] right logically by an immediate amount into g[d]. -/
  | shri (gd : Guard) (d a s : Nat)
  /-- SHAI (R136): Shifts g[a] right arithmetically by an immediate amount into g[d]. -/
  | shai (gd : Guard) (d a s : Nat)
  /-- ROTI (R136): Rotates g[a] right by an immediate amount into g[d]. -/
  | roti (gd : Guard) (d a s : Nat)
  /-- LI (R137): Sets g[d] to a sign-extended 15-bit immediate. -/
  | li (gd : Guard) (d i : Nat)
  /-- LIS (R137): Shifts g[d] left by 15 and ORs in a zero-extended 15-bit immediate. -/
  | lis (gd : Guard) (d i : Nat)
  /-- CMP (R139): Compares g[a] with g[b] as signed values and writes the condition and its complement to a k pair. -/
  | cmp (gd : Guard) (k a b c : Nat)
  /-- CMPN (R139): Compares g[a] with g[b] naturally or by bit test into a k pair. -/
  | cmpn (gd : Guard) (k a b c : Nat)
  /-- CMPI (R139): Compares g[a] with a sign-extended immediate into a k pair. -/
  | cmpi (gd : Guard) (k a i c : Nat)
  /-- CMPIN (R139): Compares g[a] with a zero-extended immediate naturally or by bit test into a k pair. -/
  | cmpin (gd : Guard) (k a i c : Nat)
  /-- KAND (R140): Writes k[a] AND k[b] to k[d]. -/
  | kand (gd : Guard) (d a b : Nat)
  /-- KOR (R140): Writes k[a] OR k[b] to k[d]. -/
  | kor (gd : Guard) (d a b : Nat)
  /-- KXOR (R140): Writes k[a] XOR k[b] to k[d]. -/
  | kxor (gd : Guard) (d a b : Nat)
  /-- KANDN (R140): Writes k[a] AND NOT k[b] to k[d]. -/
  | kandn (gd : Guard) (d a b : Nat)
  /-- PBT (R142): Places an absolute target in b[bt] and starts its prefetch into the split buffer. -/
  | pbt (gd : Guard) (t s : Nat)
  /-- PBTR (R142): Places the target g[a][13:0] in b[bt] and starts its prefetch. -/
  | pbtr (gd : Guard) (t a : Nat)
  /-- XFER (R143): Transfers to b[bt] after two delay slots when its guard is true. -/
  | xfer (gd : Guard) (t : Nat)
  /-- XFERL (R143): Transfers like XFER and writes the return index to g[d] when its guard is true. -/
  | xferl (gd : Guard) (t d : Nat)
  /-- LD (R146): Loads 1 to 8 bytes from VA space, sign-extended into g[d], as the ord field's access kind. -/
  | ld (gd : Guard) (d a o z r s : Nat)
  /-- LDN (R146): Loads 1 to 8 bytes from VA space, zero-extended into g[d]. -/
  | ldn (gd : Guard) (d a o z r s : Nat)
  /-- ST (R146): Stores 1 to 8 bytes of g[d] to VA space as the ord field's access kind. -/
  | st (gd : Guard) (d a o z r s : Nat)
  /-- SLD (R146): Loads 1 to 8 bytes from S-space, sign-extended into g[d]. -/
  | sld (gd : Guard) (d a o z r s : Nat)
  /-- SLDN (R146): Loads 1 to 8 bytes from S-space, zero-extended into g[d]. -/
  | sldn (gd : Guard) (d a o z r s : Nat)
  /-- SST (R146): Stores 1 to 8 bytes of g[d] to S-space as the ord field's access kind. -/
  | sst (gd : Guard) (d a o z r s : Nat)
  /-- AMO (R148): Performs an atomic read-modify-write in VA space with relaxed or acquire order, returning the old value. -/
  | amo (gd : Guard) (d a b f z o : Nat)
  /-- AMOR (R148): Performs an atomic read-modify-write in VA space with release or acquire-release order. -/
  | amor (gd : Guard) (d a b f z o : Nat)
  /-- SAMO (R148): Performs an atomic read-modify-write in S-space with relaxed or acquire order. -/
  | samo (gd : Guard) (d a b f z o : Nat)
  /-- SAMOR (R148): Performs an atomic read-modify-write in S-space with release or acquire-release order. -/
  | samor (gd : Guard) (d a b f z o : Nat)
  /-- CAS (R149): Compares and swaps a 32- or 64-bit word in VA or S-space with separate success and failure orders. -/
  | cas (gd : Guard) (d a b p f z s : Nat)
  /-- FENCE_WW (R83): Orders the context's earlier strong writes before its later strong writes. -/
  | fenceWw (gd : Guard)
  /-- FENCE_FULL (R83): Orders every earlier strong access of the context before every later access. -/
  | fenceFull (gd : Guard)
  /-- FENCE_ALL_CORE (R150): Acts as FENCE.FULL and waits until every earlier write is performed at core scope. -/
  | fenceAllCore (gd : Guard)
  /-- FENCE_ALL_DIE (R150): Acts as FENCE.FULL and waits until every earlier write is performed at die scope. -/
  | fenceAllDie (gd : Guard)
  /-- FENCE_ALL_DOMAIN (R150): Acts as FENCE.FULL and waits for every earlier write, including posted window writes, at domain scope. -/
  | fenceAllDomain (gd : Guard)
  /-- BIND (R151): Binds a region to a semaphore or flag word in the task's binding table. -/
  | bind (gd : Guard) (d a b k s : Nat)
  /-- UNBIND (R152): Removes the binding of every byte of a region and trims the entries it covers. -/
  | unbind (gd : Guard) (d a s : Nat)
  /-- SEMADD (R153): Adds n to a vault semaphore, or makes a byte-barrier add, as an unstaged release. -/
  | semadd (gd : Guard) (a b : Nat)
  /-- SEMWAIT (R153): Blocks until a semaphore's count reaches n or a barrier reaches the named phase. -/
  | semwait (gd : Guard) (a b : Nat)
  /-- SEMWDEC (R153): Blocks until a semaphore's count is at least n and then decrements it atomically. -/
  | semwdec (gd : Guard) (a b : Nat)
  /-- SEMGET (R153): Reads a whole semaphore word into g[d] as a relaxed read. -/
  | semget (gd : Guard) (d a : Nat)
  /-- SEMARM (R153): Sets a byte-barrier's EXPECT and clears its COUNT. -/
  | semarm (gd : Guard) (a b : Nat)
  /-- CMD (R154): Checks a record image and appends it to the task's queue of the named engine, blocking while the queue is full. -/
  | cmd (gd : Guard) (d a e : Nat)
  /-- CMDR (R155): Appends a record image to the queue of another slot of the die holding a task of the same launch. -/
  | cmdr (gd : Guard) (d a b e : Nat)
  /-- CPYT (R156): Starts an asynchronous copy whose completion is signalled through a scoreboarded token register. -/
  | cpyt (gd : Guard) (d a b s t : Nat)
  /-- KPOP (R141): Removes the oldest vote from the context's vote queue into k[d], blocking while it is empty. -/
  | kpop (gd : Guard) (d : Nat)
  /-- MFS (R158): Reads a state register into g[d]. -/
  | mfs (gd : Guard) (d x : Nat)
  /-- MTS (R158): Writes g[d] into a state register within the context's write rights. -/
  | mts (gd : Guard) (d x : Nat)
  /-- SWPT (R159): Reads PWRLVL and the skim table and continues at another variant's entry for the switch point if the table names one. -/
  | swpt (gd : Guard) (i : Nat)
  /-- CLKDIV (R160): Sets the core's engine and SCU clock divisors from g[a]. -/
  | clkdiv (gd : Guard) (a : Nat)
  /-- PARK (R161): Ends the task once its queues, commands, copies and posted writes have all completed, or idles the docent. -/
  | park (gd : Guard)
  /-- YIELD (R161): Forfeits the context's next issue turn. -/
  | yield (gd : Guard)
  /-- TRAP (R162): Traps with cause 0x0D carrying the code in TVAL. -/
  | trap (gd : Guard) (c : Nat)
  /-- BRK (R162): Traps with cause 0x0D carrying 0x400 plus the code in TVAL. -/
  | brk (gd : Guard) (c : Nat)
  /-- TREN (R287): Reopens the context's trap window inside a handler. -/
  | tren (gd : Guard)
  /-- TRET (R287): Returns from a handler to TPC with its pending transfer, releasing the task's engines at depth 0. -/
  | tret (gd : Guard)
  /-- TSNAP (R288): Pauses a slot and writes its 512-byte context snapshot to S-space, docent only. -/
  | tsnap (gd : Guard) (a b : Nat)
  /-- WAKE (R289): Resumes a frozen or pre-empted task, or reflects its trap into its own handler, docent only. -/
  | wake (gd : Guard) (a : Nat)
  /-- NOP (R105): Has no effect in any engine or the SCU. -/
  | nop (gd : Guard)
  /-- MOV_16 (R113): Copies g[a] to g[d] as a 16-bit word. -/
  | mov16 (d a : Nat)
  /-- ADD_16 (R113): Adds g[a] into g[d] as a 16-bit word. -/
  | add16 (d a : Nat)
  /-- SUB_16 (R113): Subtracts g[a] from g[d] as a 16-bit word. -/
  | sub16 (d a : Nat)
  /-- AND_16 (R113): ANDs g[a] into g[d] as a 16-bit word. -/
  | and16 (d a : Nat)
  /-- OR_16 (R113): ORs g[a] into g[d] as a 16-bit word. -/
  | or16 (d a : Nat)
  /-- XOR_16 (R113): XORs g[a] into g[d] as a 16-bit word. -/
  | xor16 (d a : Nat)
  /-- ADDI_16 (R113): Adds a signed 5-bit immediate to g[d] as a 16-bit word. -/
  | addi16 (d i : Nat)
  /-- LI_16 (R113): Loads a signed 5-bit immediate into g[d] as a 16-bit word. -/
  | li16 (d i : Nat)
  /-- SHLI_16 (R113): Shifts g[d] left by 0 to 31 as a 16-bit word. -/
  | shli16 (d s : Nat)
  /-- SHRI_16 (R113): Shifts g[d] right logically by 0 to 31 as a 16-bit word. -/
  | shri16 (d s : Nat)
  /-- XFER_16 (R113): Unguarded transfer to b[bt] as a 16-bit word. -/
  | xfer16 (t : Nat)
  /-- KPOP_16 (R113): Pops a vote into k[d] as a 16-bit word. -/
  | kpop16 (d : Nat)
  /-- NOP_16 (R113): Has no effect, as a 16-bit word. -/
  | nop16
  /-- ILLEGAL_INSTRUCTION (R100): An illegal or unassigned instruction word traps with cause 0x01 before any effect. -/
  | illegalInstruction (word : Nat)
  /-- BLK (R103): Opens a block whose body of LEN halfwords runs REPEAT times within a pass. -/
  | blk (l r : Nat)
  /-- MARK (R105): Asks for a progress mark at the end of the current pass. -/
  | mark (gd : Guard)
  /-- VADD (R170): Adds two float rows lane by lane with one rounding. -/
  | vadd (gd : Guard) (d a b t : Nat)
  /-- VSUB (R170): Subtracts two float rows lane by lane with one rounding. -/
  | vsub (gd : Guard) (d a b t : Nat)
  /-- VMUL (R170): Multiplies two float rows lane by lane with one rounding. -/
  | vmul (gd : Guard) (d a b t : Nat)
  /-- VFMA (R170): Computes x times y plus z per lane with one rounding. -/
  | vfma (gd : Guard) (d a b t : Nat)
  /-- VFMS (R170): Computes x times y minus z per lane with one rounding. -/
  | vfms (gd : Guard) (d a b t : Nat)
  /-- VMAX (R171): Writes the maximumNumber of two float rows per lane. -/
  | vmax (gd : Guard) (d a b t : Nat)
  /-- VMIN (R171): Writes the minimumNumber of two float rows per lane. -/
  | vmin (gd : Guard) (d a b t : Nat)
  /-- VABS (R172): Clears the sign of each flushed float lane. -/
  | vabs (gd : Guard) (d a t : Nat)
  /-- VNEG (R172): Inverts the sign of each flushed float lane. -/
  | vneg (gd : Guard) (d a t : Nat)
  /-- VCLASS (R173): Writes a one-hot class code of each raw float lane. -/
  | vclass (gd : Guard) (d a t : Nat)
  /-- VRCP (R174): Writes the reciprocal of each lane rounded as R49 fixes. -/
  | vrcp (gd : Guard) (d a t : Nat)
  /-- VRSQ (R174): Writes the reciprocal square root of each lane as R49 fixes. -/
  | vrsq (gd : Guard) (d a t : Nat)
  /-- VEXP2 (R174): Writes two to the power of each lane as R49 fixes. -/
  | vexp2 (gd : Guard) (d a t : Nat)
  /-- VLOG2 (R174): Writes the base-two logarithm of each lane as R49 fixes. -/
  | vlog2 (gd : Guard) (d a t : Nat)
  /-- VTANH (R174): Writes the hyperbolic tangent of each lane as R49 fixes. -/
  | vtanh (gd : Guard) (d a t : Nat)
  /-- VCVT (R176): Converts the elements of a row between two number formats. -/
  | vcvt (gd : Guard) (d a s f : Nat)
  /-- VRQ (R178): Rescales narrow-format block elements by per-block exponent deltas with one rounding. -/
  | vrq (gd : Guard) (d a b t : Nat)
  /-- VPACK (R179): Narrows two integer rows into one by keeping low halves. -/
  | vpack (gd : Guard) (d a b t : Nat)
  /-- VUNPK (R179): Sign-extends one half of an integer row into a row of double width. -/
  | vunpk (gd : Guard) (d a h t : Nat)
  /-- VCMPF (R180): Compares float lanes and writes the condition and its complement into a predicate pair. -/
  | vcmpf (gd : Guard) (p a b c t : Nat)
  /-- VCMPI (R180): Compares integer lanes into a predicate pair. -/
  | vcmpi (gd : Guard) (p a b c t : Nat)
  /-- VIADD (R182): Adds integer lanes with wrap. -/
  | viadd (gd : Guard) (d a b t : Nat)
  /-- VISUB (R182): Subtracts integer lanes with wrap. -/
  | visub (gd : Guard) (d a b t : Nat)
  /-- VIMUL (R182): Multiplies integer lanes keeping low bits. -/
  | vimul (gd : Guard) (d a b t : Nat)
  /-- VIMAX (R182): Writes the signed greater of integer lanes. -/
  | vimax (gd : Guard) (d a b t : Nat)
  /-- VIMIN (R182): Writes the signed lesser of integer lanes. -/
  | vimin (gd : Guard) (d a b t : Nat)
  /-- VIMAXN (R182): Writes the natural greater of integer lanes. -/
  | vimaxn (gd : Guard) (d a b t : Nat)
  /-- VIMINN (R182): Writes the natural lesser of integer lanes. -/
  | viminn (gd : Guard) (d a b t : Nat)
  /-- VAND (R182): ANDs lanes bitwise. -/
  | vand (gd : Guard) (d a b t : Nat)
  /-- VOR (R182): ORs lanes bitwise. -/
  | vor (gd : Guard) (d a b t : Nat)
  /-- VXOR (R182): XORs lanes bitwise. -/
  | vxor (gd : Guard) (d a b t : Nat)
  /-- VANDN (R182): Computes a AND NOT b per lane. -/
  | vandn (gd : Guard) (d a b t : Nat)
  /-- VSHL (R182): Shifts lanes left by per-lane amounts. -/
  | vshl (gd : Guard) (d a b t : Nat)
  /-- VSHR (R182): Shifts lanes right logically by per-lane amounts. -/
  | vshr (gd : Guard) (d a b t : Nat)
  /-- VSHA (R182): Shifts lanes right arithmetically by per-lane amounts. -/
  | vsha (gd : Guard) (d a b t : Nat)
  /-- VMOV (R181): Copies each lane that is on, bit for bit. -/
  | vmov (gd : Guard) (d a t : Nat)
  /-- VBCAST (R183): Broadcasts one lane of a row, chosen by an address register, to every lane that is on. -/
  | vbcast (gd : Guard) (d a k t : Nat)
  /-- VIOTA (R183): Writes an address register's value plus the lane index to each lane. -/
  | viota (gd : Guard) (d k t : Nat)
  /-- VSHUF (R183): Gathers lanes of a row by per-lane indices. -/
  | vshuf (gd : Guard) (d a b t : Nat)
  /-- VSLIDE (R183): Slides a row's lanes towards or away from lane 0 by an address-register amount. -/
  | vslide (gd : Guard) (d a k r t : Nat)
  /-- VREDADD (R184): Writes the once-rounded exact sum of the participating float lanes to lane 0. -/
  | vredadd (gd : Guard) (d a t : Nat)
  /-- VREDMAX (R184): Writes the maximumNumber of the participating lanes to lane 0. -/
  | vredmax (gd : Guard) (d a t : Nat)
  /-- VREDMIN (R184): Writes the minimumNumber of the participating lanes to lane 0. -/
  | vredmin (gd : Guard) (d a t : Nat)
  /-- VREDIADD (R184): Writes the wrapped integer sum of the participating lanes to lane 0. -/
  | vrediadd (gd : Guard) (d a t : Nat)
  /-- PAND (R195): ANDs two predicates granule by granule. -/
  | pand (gd : Guard) (d a b : Nat)
  /-- POR (R195): ORs two predicates granule by granule. -/
  | por (gd : Guard) (d a b : Nat)
  /-- PXOR (R195): XORs two predicates granule by granule. -/
  | pxor (gd : Guard) (d a b : Nat)
  /-- PANDN (R195): Computes pa AND NOT pb granule by granule. -/
  | pandn (gd : Guard) (d a b : Nat)
  /-- PSET (R196): Sets a range of predicate granules true and all others false. -/
  | pset (d f l : Nat)
  /-- VANY (R197): Pushes onto the SCU vote queue whether any participating lane tests true. -/
  | vany (gd : Guard) (a t : Nat)
  /-- VALL (R197): Pushes onto the SCU vote queue whether every participating lane tests true. -/
  | vall (gd : Guard) (a t : Nat)
  /-- VLD (R188): Loads a 512-byte row from memory, counting on a dependence counter. -/
  | vld (gd : Guard) (d k c o p : Nat)
  /-- VST (R188): Stores a 512-byte row to memory, counting on a dependence counter. -/
  | vst (gd : Guard) (d k c o p : Nat)
  /-- VLDX (R193): Gathers 32- or 16-bit elements into a row by per-lane indices. -/
  | vldx (gd : Guard) (d k b c e : Nat)
  /-- VSTX (R193): Scatters 32- or 16-bit elements of a row by per-lane indices. -/
  | vstx (gd : Guard) (d k b c e : Nat)
  /-- AADD (R187): Adds a signed 16-bit immediate to an address register. -/
  | aadd (k i : Nat)
  /-- ALI (R187): Loads a signed 16-bit immediate into an address register. -/
  | ali (k i : Nat)
  /-- APAIL (R199): Sets an address register to the S-space address of a pail slot ahead of a side's pointer. -/
  | apail (a h s k : Nat)
  /-- PAILW (R200): Waits until a pail has at least n filled slots. -/
  | pailw (h c : Nat)
  /-- PAILF (R200): Waits until a pail has at least n free slots. -/
  | pailf (h c : Nat)
  /-- PAILA (R200): Publishes or releases n pail slots, the increment staged to the next mark. -/
  | paila (h c s : Nat)
  /-- DWAIT (R192): Stalls the VE until a dependence counter is at or below a limit. -/
  | dwait (c l : Nat)
  /-- VSIG (R201): Stages a SemAdd on a record semaphore for the VE's next mark. -/
  | vsig (e c : Nat)
  /-- VWAIT (R201): Waits on, or waits and decrements, a record semaphore. -/
  | vwait (e c w : Nat)
  /-- VWIN (R202): Selects the tile and half that v0 to v63 alias. -/
  | vwin (t h : Nat)
  /-- VCFG (R204): Sets the VE rounding mode and enables, a seed half, or clears sticky flags. -/
  | vcfg (s i : Nat)
  /-- MCEL (R211): Checks a weight image's header and binds a cellar name to its cellar entry, fetching it on a miss. -/
  | mcel (gd : Guard) (s k : Nat)
  /-- MLDW (R214): Binds the inactive logical plane to a cellar name's triple and requests its expansion. -/
  | mldw (gd : Guard) (s : Nat)
  /-- MPLN (R214): Selects or swaps the active logical plane. -/
  | mpln (gd : Guard) (p : Nat)
  /-- MMA (R222): Checks and captures a multiply-accumulate pass into a tile, possibly as a churn member. -/
  | mma (gd : Guard) (t k r b m : Nat)
  /-- MMAB (R224): Runs a block-diagonal multiply-accumulate pass into a tile. -/
  | mmab (gd : Guard) (t k r b : Nat)
  /-- MRET (R219): Waits for the tile's passes and commits it, releasing the commit interlock. -/
  | mret (gd : Guard) (t : Nat)
  /-- MZRO (R219): Zeroes a tile and makes it ME-owned with its type open. -/
  | mzro (gd : Guard) (t : Nat)
  /-- MCAT (R216): Checks a 16-byte image and writes it as a catalogue row. -/
  | mcat (gd : Guard) (r k : Nat)
  /-- MWAIT (R225): Performs a semaphore wait or decrement, or a pail wait, for the ME. -/
  | mwait (gd : Guard) (k i c : Nat)
  /-- MADV (R225): Publishes or releases pail slots for the ME with the increment staged. -/
  | madv (gd : Guard) (h s c : Nat)
  /-- MSIG (R225): Stages a SemAdd for the ME's next mark. -/
  | msig (gd : Guard) (e c : Nat)
  /-- CMOV (R240): Copies a contiguous run of elements between VA and local S-space. -/
  | cmov (gd : Guard) (d a l p q e : Nat)
  /-- CFIL (R240): Fills a contiguous run of elements with a register value. -/
  | cfil (gd : Guard) (d l v p e : Nat)
  /-- CPUSH (R244): Claims a stream slot and sends one slot of local bytes across the link, the filled count staged. -/
  | cpush (gd : Guard) (e k : Nat)
  /-- CPOP (R244): Pops a filled stream slot into local bytes, the free count staged. -/
  | cpop (gd : Guard) (e k : Nat)
  /-- CFOL (R241): Arms the record's follow-on ME command for enqueue at the final mark. -/
  | cfol (gd : Guard)
  /-- CSIG (R242): Stages a SemAdd for the CE's next mark. -/
  | csig (gd : Guard) (e c : Nat)
  /-- CWAIT (R242): Performs a semaphore or pail wait for the CE. -/
  | cwait (gd : Guard) (k i c : Nat)
  /-- CADV (R242): Publishes or releases pail slots for the CE. -/
  | cadv (gd : Guard) (h s c : Nat)
  /-- XSND (R245): Sends local bytes as posted writes through a loan window. -/
  | xsnd (gd : Guard) (d a l s : Nat)
  /-- XRED (R246): Waits for a filled pail slot, adds it into local data and releases it. -/
  | xred (gd : Guard) (d h t : Nat)
  /-- XCAD (R247): Records a combining fetch-and-add through a window for issue at the next mark. -/
  | xcad (gd : Guard) (d v o z : Nat)
  /-- XBCS (R248): Multicasts local bytes as posted writes to every member of a group. -/
  | xbcs (gd : Guard) (p d a l : Nat)
  /-- XGAT (R245): Gathers bytes through a loan window into local S-space. -/
  | xgat (gd : Guard) (d a l : Nat)
  /-- XSIG (R242): Stages a SemAdd for the XE's next mark. -/
  | xsig (gd : Guard) (e c : Nat)
  /-- XWAIT (R242): Performs a semaphore or pail wait for the XE. -/
  | xwait (gd : Guard) (k i c : Nat)
  /-- XADV (R242): Publishes or releases pail slots for the XE. -/
  | xadv (gd : Guard) (h s c : Nat)
  /-- QLAUNCH (R298): Offers a launch of a task graph to the Registrars of its dies. -/
  | qlaunch (after weight cls dies depth bodyLen : Nat) (body : Nat) (bodySum : Nat) (arg : Nat)
  /-- QCALL (R299): Enters an indirect buffer one level deeper. -/
  | qcall (addr len : Nat)
  /-- QRET (R299): Returns from an indirect buffer. -/
  | qret
  /-- QJUMP (R299): Replaces the current indirect buffer at the same depth. -/
  | qjump (addr len : Nat)
  /-- QPRED (R300): Skips the next packets unless a memory word meets a condition. -/
  | qpred (cond addr value skip : Nat)
  /-- QLOOP (R301): Opens a packet loop of COUNT iterations. -/
  | qloop (count : Nat)
  /-- QLEND (R301): Decrements the loop count and loops back or pops the loop. -/
  | qlend
  /-- QWRITE (R302): Writes a word of admissions memory before the next packet executes. -/
  | qwrite (addr value : Nat)
  /-- QFENCE (R302): Empties the fetch window. -/
  | qfence
  /-- QNOP (R302): Padding packet with no effect. -/
  | qnop (len : Nat)
  /-- QSIGNAL (R303): Adds n to a package-vault semaphore, optionally after earlier launches complete. -/
  | qsignal (after handle n : Nat)
  /-- QWAIT (R303): Waits on or decrements a package-vault semaphore, lending tickets meanwhile. -/
  | qwait (dec handle n signaller : Nat)
  /-- ILLEGAL_PACKET (R297): A packet with an error-state type or malformed fields puts its queue into ERROR with no effect. -/
  | illegalPacket (code : Nat)
  /-- CHOOSE (R306): Admissions picks the runnable queue with least PASS and runs its turn of packets. -/
  | choose
  /-- NOTIFY (R294): A work-queue notify message is authenticated and judged, moving TAIL or putting the queue into ERROR or quarantine. -/
  | notify (q tail : Nat) (nonce tag : Word) (reserved : Bool)
  /-- QUEUE_SET_RUN (R292): Curator S writing STATE = 1 moves a queue from OFF or ERROR to RUN when its counts are consistent. -/
  | queueSetRun (q : Nat)
  /-- QUEUE_SET_OFF (R292): Curator S writing STATE = 0 takes a queue OFF at the next packet boundary. -/
  | queueSetOff (q : Nat)
  /-- QUEUE_COUNTS_WRITE (R292): Writes to HEAD, TAIL or DONE are accepted only while the queue is OFF or ERROR. -/
  | queueCountsWrite (q : Nat) (which : Nat) (v : BitVec 32)
  /-- QUAR_CLEAR (R291): Curator S writing QUAR = 0 lifts a queue's quarantine. -/
  | quarClear (q : Nat)
  /-- ERRMAP_CLEAR (R291): A write of 1 to an ERRMAP bit clears it. -/
  | errmapClear (q : Nat)
  /-- OFFER (R308): A Registrar receives a launch offer, reads and checks the body and answers ACCEPT, BUSY or REFUSE. -/
  | offer (die : Nat)
  /-- OFFER_ANSWER (R308): Admissions acts on the Registrars' answers, sending GO or DROP and charging or erroring the queue. -/
  | offerAnswer
  /-- GO (R309): A Registrar initialises the launch's vault words and relocations and computes its instances and counts. -/
  | go (die : Nat)
  /-- DROP (R308): A Registrar discards an offer that admissions dropped. -/
  | drop (die : Nat)
  /-- LAUNCH_COMPLETE (R310): When every die has reported a launch complete, its allotments are freed and DONE advances. -/
  | launchComplete (seq : Nat)
  /-- PLACE (R320): When a slot frees or an entry arrives, the Registrar scans the ready pool and places accepted instances. -/
  | place (die : Nat)
  /-- TASK_START (R321): Once the docent has loaded the image and zeroed the tiles, the task starts with its entry state. -/
  | taskStart (at_ : CtxId)
  /-- TASK_END (R20): A parked task ends once its outstanding work has retired, publishing at level scopes and decrementing successor counts. -/
  | taskEnd (at_ : CtxId)
  /-- ENGINE_COMMAND_START (R322): An engine takes the next record of a slot's queue as its current command and begins its passes. -/
  | engineCommandStart (ag : AgentId)
  /-- PROGRESS_MARK (R69): Once the interval's accesses complete, the engine commits them and its staged operations and writes the progress area atomically. -/
  | progressMark (ag : AgentId)
  /-- ACCESS_COMPLETE (R191): A VE load or store completes, writing its row bytes and lowering its dependence counter in issue order. -/
  | accessComplete (at_ : CtxId) (id : Nat)
  /-- VAULT_WAIT_COMPLETE (R65): A blocked semaphore or pail wait of any agent completes once the word satisfies it, as an acquire. -/
  | vaultWaitComplete (ag : AgentId)
  /-- STREAM_WAIT_COMPLETE (R244): A blocked CPUSH or CPOP proceeds once a slot is free or filled. -/
  | streamWaitComplete (at_ : CtxId)
  /-- CPYT_COMPLETE (R157): A pending copy completes and writes its byte count into the token register. -/
  | cpytComplete (at_ : CtxId) (reg : Nat)
  /-- TRANSFER_COMPLETE (R237): A CE or XE transfer completes when every byte has landed and been acknowledged, raising any in-flight fault. -/
  | transferComplete (ag : AgentId) (id : Nat)
  /-- WINDOW_WRITE_ACK (R60): A target's acknowledgement lowers the window's posted-write count, letting stalled pieces issue. -/
  | windowWriteAck (core : CoreId) (id : Nat) (ok : Bool)
  /-- CELLAR_FETCH_COMPLETE (R211): A weight image's payload fetch completes or fails, invalidating the entry on failure. -/
  | cellarFetchComplete (core : CoreId) (tag : Nat)
  /-- PLANE_EXPANSION_COMPLETE (R212): An expansion into a physical plane completes so passes needing its triple may run. -/
  | planeExpansionComplete (core : CoreId) (plane : Nat)
  /-- CHURN_DEADLINE (R227): An open stack becomes ready when its earliest member's MBHOLD deadline is reached. -/
  | churnDeadline (core : CoreId) (id : Nat)
  /-- ARRAY_PASS (R228): A ready pass or stack takes the array in class order and runs its members' rows. -/
  | arrayPass (core : CoreId)
  /-- PASS_COMPLETE (R222): An array pass writes its rows to each member's tile, or fails members separately. -/
  | passComplete (core : CoreId) (id : Nat)
  /-- BANK_EXCHANGE_COMPLETE (R385): An accumulator bank-set exchange finishes and waiting accesses to the two tiles proceed. -/
  | bankExchangeComplete (core : CoreId)
  /-- DOORBELL (R272): A write to DOORBELL ends a PARK of the core's docent. -/
  | doorbell (core : CoreId)
  /-- TQRD_WRITE (R409): Curator S writing TQRD consumes supervisor trap-queue entries, freeing room. -/
  | tqrdWrite (v : BitVec 32)
  /-- MQRD_WRITE (R409): Curator M writing MQRD consumes monitor trap-queue entries, releasing held traps. -/
  | mqrdWrite (v : BitVec 32)
  /-- SUPERVISOR_WATCHDOG_EXPIRY (R276): No refresh within 2 ms starts a takeover by pair B. -/
  | supervisorWatchdogExpiry
  /-- LOCKSTEP_MISMATCH (R274): A lockstep compare failure stops a pair, starting a takeover for pair A or a restart for the others. -/
  | lockstepMismatch (pair : Nat)
  /-- SUPSWAP (R394): A write of 1 to SUPSWAP.GO starts a planned takeover at pair A's next journal commit. -/
  | supswap
  /-- DUTY_WRITE (R290): Curator S writing DUTY switches functions between in-silicon and assisted modes at their stated points. -/
  | dutyWrite (v : Word)
  /-- FRES_RETRY (R328): A retry verdict makes every access parked on the page walk again. -/
  | fresRetry (die idx : Nat)
  /-- FRES_FAIL_05 (R328): A fail verdict faults every access parked on the page with cause 0x05. -/
  | fresFail05 (die idx : Nat)
  /-- FRES_FAIL_06 (R328): A fail verdict faults every access parked on the page with cause 0x06. -/
  | fresFail06 (die idx : Nat)
  /-- TLBFILL (R329): Curator S fills a die TLB leaf under assisted walks. -/
  | tlbfill (die va asid level : Nat) (leaf : Word)
  /-- INVAL_ALL (R326): Invalidates every translation of the die. -/
  | invalAll (die : Nat)
  /-- INVAL_ASID (R326): Invalidates every non-global translation of an ASID. -/
  | invalAsid (die asid : Nat)
  /-- INVAL_PAGE (R326): Invalidates a page's translations and the cellar entries whose tags lie in it. -/
  | invalPage (die asid : Nat)
  /-- INVAL_COMPLETE (R326): An invalidation has reached every micro-TLB and cellar of the die and DONE reads 1. -/
  | invalComplete (die : Nat)
  /-- INBOUND_ACCESS (R336): A target die admits or denies an inbound window, multicast or UALink access by its lending entries. -/
  | inboundAccess (die : Nat) (src : InSrc) (key : Word) (req : InReq)
  /-- INGRESS_NOTIFY (R337): An inbound ingress notify is authenticated and judged against the control block. -/
  | ingressNotify (die q src : Nat) (key : Word) (tail : BitVec 32) (nonce tag : Word)
  /-- ICB_HEAD_WRITE (R251): An owning task's store to HEAD is taken or ignored by the queue's state. -/
  | icbHeadWrite (at_ : CtxId) (q : Nat) (v : BitVec 32)
  /-- ICB_ERR_SET (R251): An owner writing ERR = 1 puts a running ingress queue into ERROR with REASON 2. -/
  | icbErrSet (at_ : CtxId) (q : Nat)
  /-- ICB_ERR_CLEAR (R251): An owner writing ERR = 0 returns an ERROR queue to RUN when the fill fits. -/
  | icbErrClear (at_ : CtxId) (q : Nat)
  /-- ICB_SET_RUN (R251): The supervisor setting STATE = RUN starts a well-formed ingress queue. -/
  | icbSetRun (die q : Nat) (launch : Option Nat)
  /-- ICB_SET_STOPPED (R251): The supervisor setting STATE = STOPPED stops an ingress queue. -/
  | icbSetStopped (die q : Nat)
  /-- IAUTH_KEY_WRITE (R337): Writing an ingress queue's notify key sets its last nonce to 0. -/
  | iauthKeyWrite (die q : Nat) (key : BitVec 256)
  /-- FABRIC_REPLY (R340): A reply completes its own request or is dropped and counted as late. -/
  | fabricReply (station tag gen : Nat) (ok : Bool) (data : List Byte)
  /-- REQUEST_TIMEOUT (R340): A request with no reply within TOUT is timed out and reported as cause 0x07. -/
  | requestTimeout (station tag : Nat)
  /-- SLOT_RETRY (R339): A bounced slot is retried after its backoff expires. -/
  | slotRetry (station tag : Nat) (busy : Bool)
  /-- SLOT_AGE_DISCARD (R340): A station discards a slot older than twice TOUT. -/
  | slotAgeDiscard (station tag : Nat)
  /-- COMBINING_WINDOW_CLOSE (R341): A combining window closes after 64 reference cycles and forwards one combined FADD. -/
  | combiningWindowClose (id : Nat)
  /-- LINK_TAG_FAILURE (R343): A failed link tag stops the link and posts cause 0x13 for each partition it carries. -/
  | linkTagFailure (link : Nat)
  /-- LINK_EPOCH_FLIP (R342): Flipping a link's epoch switches it to the other key slot at the next group. -/
  | linkEpochFlip (link : Nat)
  /-- LINK_KEY_WEAR (R342): At 2^39 groups a link alarms pair D and at 2^40 it refuses traffic until rolled. -/
  | linkKeyWear (link : Nat) (groups : Nat)
  /-- COUNTS_CLEAR (R334): A write to COUNTS clears the late-reply and authentication counts. -/
  | countsClear (die : Nat)
  /-- PART_WRITE (R330): A partition descriptor write takes effect unless it breaks the partition rules. -/
  | partWrite (p : Nat) (v : Word)
  /-- PVALLOT_WRITE (R410): Sets the package-vault allotment range from the next GO, ignoring FIRST above LAST. -/
  | pvallotWrite (v : Word)
  /-- BYPASS_WRITE (R396): Setting a BYPASS bit routes the wing ring round a position and denies accesses to it. -/
  | bypassWrite (v : Word)
  /-- EXTERNAL_RING_WRITE (R344): An external interface writes into a work queue's ring unit or carries a notify. -/
  | externalRingWrite (addr : Nat) (data : ExtData)
  /-- WATCHDOG_EXPIRY (R347): An engine's or context's watchdog count reaches WDT and raises an alarm. -/
  | watchdogExpiry (ag : AgentId)
  /-- PARITY_ALARM (R346): A parity error in engine control state raises a conservator alarm. -/
  | parityAlarm (core : CoreId) (src : AlarmSrc)
  /-- PROTOCOL_ALARM (R346): An unmatched reply or refused mark write-back raises a conservator alarm. -/
  | protocolAlarm (core : CoreId) (src : AlarmSrc)
  /-- ENGINE_RESET (R348): After any mark action in progress ends, the engine flushes, discards, reloads and resumes every slot. -/
  | engineReset (core : CoreId) (kind : AgentKind)
  /-- ROLLING_RESET (R351): Once per rolling period each engine is reloaded at a mark with no work lost. -/
  | rollingReset (core : CoreId) (kind : AgentKind)
  /-- CORE_RESET (R363): SLOTCTL.CRST resets the core, restarts its docent and reissues or fails its tasks. -/
  | coreReset (core : CoreId)
  /-- CORE_RESET_TIMEOUT (R345): A core reset not completed within 1 ms starts a die reset. -/
  | coreResetTimeout (core : CoreId)
  /-- DIE_RESET (R364): DIECTL starts a die reset of every core, the Registrar, TLB, walkers and mesh. -/
  | dieReset (die : Nat)
  /-- DIE_RESET_TIMEOUT (R345): A die reset not completed within 10 ms starts a package reset. -/
  | dieResetTimeout (die : Nat)
  /-- PACKAGE_RESET (R365): PKGRST resets the whole package, rewinds queue HEAD to DONE and re-verifies the boot chain. -/
  | packageReset
  /-- PARTITION_RESET (R366): PARTRST applies a package reset to one partition's dies, queues and package-vault words. -/
  | partitionReset (p : Nat)
  /-- PREEMPT_REQUEST (R358): SLOTCTL.PRE asks each agent of a slot's task to stop at its next safe point. -/
  | preemptRequest (at_ : CtxId)
  /-- PREEMPTION_COMPLETE (R358): When every agent has stopped, the task is pre-empted and cause 0x11 is raised. -/
  | preemptionComplete (at_ : CtxId)
  /-- SLOT_ABORT (R360): SLOTCTL.ABT ends a slot's task and reissues or fails its instance. -/
  | slotAbort (at_ : CtxId) (afail : Bool)
  /-- PSTEP_REQUEST (R372): A PSTROBE rising edge samples PSTEP into PINREQ and may change the granted level. -/
  | pstepRequest (level : Nat)
  /-- POWER_MESSAGE (R372): An authenticated power message sets FABREQ and may change the granted level. -/
  | powerMessage (level : Nat) (nonce tag : Word) (reserved : Bool)
  /-- FWREQ_WRITE (R372): Firmware writing FWREQ may change the granted level. -/
  | fwreqWrite (level : Nat)
  /-- LADDER_RAISE (R374): While PMEAS exceeds the cap, the depth rises by one every 50 µs. -/
  | ladderRaise
  /-- LADDER_RELEASE (R375): With no core pending and PMEAS below 95 % of the cap for 100 µs, the depth falls by one. -/
  | ladderRelease
  /-- DEPTH_WRITE (R375): With DUTY bit 4 set, pair C writes the ladder depth. -/
  | depthWrite (depth : Nat)
  /-- BUCKET_WRITE (R378): Writes a current bucket's CAP and RATE, clamping BAL to CAP. -/
  | bucketWrite (core : CoreId) (cls : Nat) (v : Word)
  /-- SENSOR_SAMPLE (R383): Every 100 µs each sensor is judged and its USED reading and STATUS updated. -/
  | sensorSample (die : Nat) (raws : List (BitVec 16))
  /-- SENS_WRITE (R382): Clears a sensor's ALM or sets EXCL under assisted validation. -/
  | sensWrite (die i : Nat) (v : Word)
  /-- THERMAL_DEPTH_RAISE (R384): At TJ at or above TJTHR a die's depth rises by one every 1 ms, or it is held at TJTRIP. -/
  | thermalDepthRaise (die : Nat)
  /-- THERMAL_DEPTH_FALL (R384): While TJ is below TJTHR minus 5 °C a die's depth falls by one every 10 ms. -/
  | thermalDepthFall (die : Nat)
  /-- PFAIL (R386): PFAIL going low stops every agent and writes the archive image to board flash before power-off. -/
  | pfail (cause : Nat)
  /-- COLD_RESET (R388): At power-on the boot ROM verifies the image chain and brings the module up stage by stage. -/
  | coldReset (boot : ColdBoot)
  /-- LIVE_MASK_WRITE (R392): A LIVEDIE or LIVECORE write fences or restores dies and cores from the next offer. -/
  | liveMaskWrite (which : Nat) (v : Word)
  /-- DOCUPD (R393): Loads a verified docent image into a parked docent and restarts it. -/
  | docupd (v : Word) (image : UpdImage)
  /-- VATREP (R395): Starts the copy of a DRAM row to a spare row and its remapping. -/
  | vatrep (die : Nat) (v : Word)
  /-- VATREP_COMPLETE (R395): A row repair ends, clearing BUSY and releasing waiting accesses, or sets FAIL. -/
  | vatrepComplete (die : Nat) (ok : Bool)
  /-- GET_VERSION (R389): SPDM request answered by pair D's responder. -/
  | getVersion
  /-- GET_CAPABILITIES (R389): SPDM request answered by pair D's responder. -/
  | getCapabilities
  /-- NEGOTIATE_ALGORITHMS (R389): SPDM request answered by pair D's responder. -/
  | negotiateAlgorithms
  /-- GET_DIGESTS (R389): SPDM request answered by pair D's responder. -/
  | getDigests
  /-- GET_CERTIFICATE (R389): SPDM request answered with the device certificate chain. -/
  | getCertificate
  /-- CHALLENGE (R389): SPDM challenge answered under the device identity key. -/
  | challenge (nonce : BitVec 256)
  /-- GET_MEASUREMENTS (R389): SPDM request answered with the MEAS registers. -/
  | getMeasurements (index : Nat)
  /-- REGISTER_WRITE (R6): A write to a register without a row of its own stores its writable fields under R6. -/
  | registerWrite (pa size v : Nat)
  /-- SUPERVISOR_WATCHDOG_REFRESH (R276): Pair A refreshes the hardware supervisor watchdog, restarting its 2 ms expiry. -/
  | supervisorWatchdogRefresh
  /-- JOURNAL_COMMIT (R275): Sloush commits a journal record by writing its final sequence word, and pair B applies it to its copy. -/
  | journalCommit (pa : Nat) (v : Word)
  /-- TAKEOVER_COMPLETE (R276): Pair B finishes applying the journal and becomes the active supervisor, taking the trap queue from the committed read pointer. -/
  | takeoverComplete
  /-- SELF_TEST_COMPLETE (R274): A stopped Curator pair finishes its self-test and returns to service, pair A as standby. -/
  | selfTestComplete (pair : Nat)
  /-- CORE_RESET_COMPLETE (R363): A core reset ends, SLOTCTL.CRST reads 0 and the restarted core may take placements again. -/
  | coreResetComplete (core : CoreId)
  /-- DIE_RESET_COMPLETE (R364): A die reset ends, DIECTL reads 0, the gallery station releases held slots and the die answers offers again. -/
  | dieResetComplete (die : Nat)
  /-- DOCUPD_COMPLETE (R393): A docent image load finishes, MEAS3 is extended, the docent restarts at index 0 and held traps are delivered. -/
  | docupdComplete
  /-- SOFT_ERROR (R72): An ECC word in SRAM, vat or vault takes an uncorrectable error that persists until a full write covers it. -/
  | softError (addr : Nat)
  /-- STEP_LIMIT_EXPIRY (R374): The 1 ms limit after a step down passes and STEPACT returns to 0. -/
  | stepLimitExpiry
deriving DecidableEq, Repr

end Sys2Proof
end

