-- ==== Sys2Proof/WellFormed.lean ====
section
/-! DEFINITION. Which instructions are well formed: every operand fits its field (05 R110, R114, R118, R119), and no combination
that the manual calls illegal stands in it (05 R101, R105, R111-R119; 07 R185; 08 R206; 09 R234; 10 R253). Packets keep the operand
limits of 14 R298-R303; events name units that exist (01 R10-R13). -/

namespace Sys2Proof

/-- A guard whose selector and inversion fit, other than the illegal G = 15 with N = 1 (05 R101). -/
def Guard.wf (gd : Guard) : Bool := gd.sel < 16 && gd.neg < 2 && !(gd.sel == 15 && gd.neg == 1)

/-- The guard of an instruction that carries none (05 R125): G = 15, N = 0. -/
def Guard.always : Guard := ⟨15, 0⟩

/-- A core of the package (01 R10). -/
def CoreId.wf (c : CoreId) : Bool := c.die < 12 && c.core < 64

/-- A context of a core (01 R13). -/
def CtxId.wf (c : CtxId) : Bool := c.die < 12 && c.core < 64 && c.ctx < 5

/-- An agent of a core (01 R13). -/
def AgentId.wf (a : AgentId) : Bool := a.die < 12 && a.core < 64 && (a.slot < 4 || (a.slot == 4 && a.kind == .scu))

/-- The state register numbers R121 assigns. -/
def stateRegAssigned (x : Nat) : Bool :=
  x ≤ 6 || (0x10 ≤ x && x ≤ 0x2F) || (0x40 ≤ x && x ≤ 0x45) || x == 0x100 || x == 0x101 || (0x110 ≤ x && x ≤ 0x113)
    || (0x120 ≤ x && x ≤ 0x124) || x == 0x200

/-- Every operand of an instruction word with the width of its field. -/
def Instr.operands : Instr → List (Nat × Nat)
  | .add _ d a b => [(d, 5), (a, 5), (b, 5)]
  | .sub _ d a b => [(d, 5), (a, 5), (b, 5)]
  | .and _ d a b => [(d, 5), (a, 5), (b, 5)]
  | .or _ d a b => [(d, 5), (a, 5), (b, 5)]
  | .xor _ d a b => [(d, 5), (a, 5), (b, 5)]
  | .andn _ d a b => [(d, 5), (a, 5), (b, 5)]
  | .shl _ d a b => [(d, 5), (a, 5), (b, 5)]
  | .shr _ d a b => [(d, 5), (a, 5), (b, 5)]
  | .sha _ d a b => [(d, 5), (a, 5), (b, 5)]
  | .rot _ d a b => [(d, 5), (a, 5), (b, 5)]
  | .min _ d a b => [(d, 5), (a, 5), (b, 5)]
  | .max _ d a b => [(d, 5), (a, 5), (b, 5)]
  | .minn _ d a b => [(d, 5), (a, 5), (b, 5)]
  | .maxn _ d a b => [(d, 5), (a, 5), (b, 5)]
  | .clz _ d a => [(d, 5), (a, 5)]
  | .ctz _ d a => [(d, 5), (a, 5)]
  | .popc _ d a => [(d, 5), (a, 5)]
  | .mul _ d a b => [(d, 5), (a, 5), (b, 5)]
  | .mulh _ d a b => [(d, 5), (a, 5), (b, 5)]
  | .mulhn _ d a b => [(d, 5), (a, 5), (b, 5)]
  | .div _ d a b => [(d, 5), (a, 5), (b, 5)]
  | .divn _ d a b => [(d, 5), (a, 5), (b, 5)]
  | .rem _ d a b => [(d, 5), (a, 5), (b, 5)]
  | .remn _ d a b => [(d, 5), (a, 5), (b, 5)]
  | .addi _ d a i => [(d, 5), (a, 5), (i, 10)]
  | .andi _ d a i => [(d, 5), (a, 5), (i, 10)]
  | .ori _ d a i => [(d, 5), (a, 5), (i, 10)]
  | .xori _ d a i => [(d, 5), (a, 5), (i, 10)]
  | .shli _ d a s => [(d, 5), (a, 5), (s, 6)]
  | .shri _ d a s => [(d, 5), (a, 5), (s, 6)]
  | .shai _ d a s => [(d, 5), (a, 5), (s, 6)]
  | .roti _ d a s => [(d, 5), (a, 5), (s, 6)]
  | .li _ d i => [(d, 5), (i, 15)]
  | .lis _ d i => [(d, 5), (i, 15)]
  | .cmp _ k a b c => [(k, 3), (a, 5), (b, 5), (c, 2)]
  | .cmpn _ k a b c => [(k, 3), (a, 5), (b, 5), (c, 2)]
  | .cmpi _ k a i c => [(k, 3), (a, 5), (i, 10), (c, 2)]
  | .cmpin _ k a i c => [(k, 3), (a, 5), (i, 10), (c, 2)]
  | .kand _ d a b => [(d, 5), (a, 5), (b, 5)]
  | .kor _ d a b => [(d, 5), (a, 5), (b, 5)]
  | .kxor _ d a b => [(d, 5), (a, 5), (b, 5)]
  | .kandn _ d a b => [(d, 5), (a, 5), (b, 5)]
  | .pbt _ t s => [(t, 2), (s, 14)]
  | .pbtr _ t a => [(t, 2), (a, 5)]
  | .xfer _ t => [(t, 2)]
  | .xferl _ t d => [(t, 2), (d, 5)]
  | .ld _ d a o z r s => [(d, 5), (a, 5), (o, 5), (z, 2), (r, 2), (s, 1)]
  | .ldn _ d a o z r s => [(d, 5), (a, 5), (o, 5), (z, 2), (r, 2), (s, 1)]
  | .st _ d a o z r s => [(d, 5), (a, 5), (o, 5), (z, 2), (r, 2), (s, 1)]
  | .sld _ d a o z r s => [(d, 5), (a, 5), (o, 5), (z, 2), (r, 2), (s, 1)]
  | .sldn _ d a o z r s => [(d, 5), (a, 5), (o, 5), (z, 2), (r, 2), (s, 1)]
  | .sst _ d a o z r s => [(d, 5), (a, 5), (o, 5), (z, 2), (r, 2), (s, 1)]
  | .amo _ d a b f z o => [(d, 5), (a, 5), (b, 5), (f, 3), (z, 1), (o, 1)]
  | .amor _ d a b f z o => [(d, 5), (a, 5), (b, 5), (f, 3), (z, 1), (o, 1)]
  | .samo _ d a b f z o => [(d, 5), (a, 5), (b, 5), (f, 3), (z, 1), (o, 1)]
  | .samor _ d a b f z o => [(d, 5), (a, 5), (b, 5), (f, 3), (z, 1), (o, 1)]
  | .cas _ d a b p f z s => [(d, 5), (a, 5), (b, 5), (p, 2), (f, 1), (z, 1), (s, 1)]
  | .fenceWw _ => []
  | .fenceFull _ => []
  | .fenceAllCore _ => []
  | .fenceAllDie _ => []
  | .fenceAllDomain _ => []
  | .bind _ d a b k s => [(d, 5), (a, 5), (b, 5), (k, 1), (s, 1)]
  | .unbind _ d a s => [(d, 5), (a, 5), (s, 1)]
  | .semadd _ a b => [(a, 5), (b, 5)]
  | .semwait _ a b => [(a, 5), (b, 5)]
  | .semwdec _ a b => [(a, 5), (b, 5)]
  | .semget _ d a => [(d, 5), (a, 5)]
  | .semarm _ a b => [(a, 5), (b, 5)]
  | .cmd _ d a e => [(d, 5), (a, 5), (e, 2)]
  | .cmdr _ d a b e => [(d, 5), (a, 5), (b, 5), (e, 2)]
  | .cpyt _ d a b s t => [(d, 5), (a, 5), (b, 5), (s, 1), (t, 1)]
  | .kpop _ d => [(d, 5)]
  | .mfs _ d x => [(d, 5), (x, 12)]
  | .mts _ d x => [(d, 5), (x, 12)]
  | .swpt _ i => [(i, 10)]
  | .clkdiv _ a => [(a, 5)]
  | .park _ => []
  | .yield _ => []
  | .trap _ c => [(c, 10)]
  | .brk _ c => [(c, 10)]
  | .tren _ => []
  | .tret _ => []
  | .tsnap _ a b => [(a, 5), (b, 5)]
  | .wake _ a => [(a, 5)]
  | .nop _ => []
  | .mov16 d a => [(d, 5), (a, 5)]
  | .add16 d a => [(d, 5), (a, 5)]
  | .sub16 d a => [(d, 5), (a, 5)]
  | .and16 d a => [(d, 5), (a, 5)]
  | .or16 d a => [(d, 5), (a, 5)]
  | .xor16 d a => [(d, 5), (a, 5)]
  | .addi16 d i => [(d, 5), (i, 5)]
  | .li16 d i => [(d, 5), (i, 5)]
  | .shli16 d s => [(d, 5), (s, 5)]
  | .shri16 d s => [(d, 5), (s, 5)]
  | .xfer16 t => [(t, 2)]
  | .kpop16 d => [(d, 5)]
  | .blk l r => [(l, 10), (r, 14)]
  | .mark _ => []
  | .vadd _ d a b t => [(d, 6), (a, 6), (b, 6), (t, 2)]
  | .vsub _ d a b t => [(d, 6), (a, 6), (b, 6), (t, 2)]
  | .vmul _ d a b t => [(d, 6), (a, 6), (b, 6), (t, 2)]
  | .vfma _ d a b t => [(d, 6), (a, 6), (b, 6), (t, 2)]
  | .vfms _ d a b t => [(d, 6), (a, 6), (b, 6), (t, 2)]
  | .vmax _ d a b t => [(d, 6), (a, 6), (b, 6), (t, 2)]
  | .vmin _ d a b t => [(d, 6), (a, 6), (b, 6), (t, 2)]
  | .vabs _ d a t => [(d, 6), (a, 6), (t, 2)]
  | .vneg _ d a t => [(d, 6), (a, 6), (t, 2)]
  | .vclass _ d a t => [(d, 6), (a, 6), (t, 2)]
  | .vrcp _ d a t => [(d, 6), (a, 6), (t, 2)]
  | .vrsq _ d a t => [(d, 6), (a, 6), (t, 2)]
  | .vexp2 _ d a t => [(d, 6), (a, 6), (t, 2)]
  | .vlog2 _ d a t => [(d, 6), (a, 6), (t, 2)]
  | .vtanh _ d a t => [(d, 6), (a, 6), (t, 2)]
  | .vcvt _ d a s f => [(d, 6), (a, 6), (s, 4), (f, 4)]
  | .vrq _ d a b t => [(d, 6), (a, 6), (b, 6), (t, 2)]
  | .vpack _ d a b t => [(d, 6), (a, 6), (b, 6), (t, 2)]
  | .vunpk _ d a h t => [(d, 6), (a, 6), (h, 6), (t, 2)]
  | .vcmpf _ p a b c t => [(p, 3), (a, 6), (b, 6), (c, 3), (t, 2)]
  | .vcmpi _ p a b c t => [(p, 3), (a, 6), (b, 6), (c, 3), (t, 2)]
  | .viadd _ d a b t => [(d, 6), (a, 6), (b, 6), (t, 2)]
  | .visub _ d a b t => [(d, 6), (a, 6), (b, 6), (t, 2)]
  | .vimul _ d a b t => [(d, 6), (a, 6), (b, 6), (t, 2)]
  | .vimax _ d a b t => [(d, 6), (a, 6), (b, 6), (t, 2)]
  | .vimin _ d a b t => [(d, 6), (a, 6), (b, 6), (t, 2)]
  | .vimaxn _ d a b t => [(d, 6), (a, 6), (b, 6), (t, 2)]
  | .viminn _ d a b t => [(d, 6), (a, 6), (b, 6), (t, 2)]
  | .vand _ d a b t => [(d, 6), (a, 6), (b, 6), (t, 2)]
  | .vor _ d a b t => [(d, 6), (a, 6), (b, 6), (t, 2)]
  | .vxor _ d a b t => [(d, 6), (a, 6), (b, 6), (t, 2)]
  | .vandn _ d a b t => [(d, 6), (a, 6), (b, 6), (t, 2)]
  | .vshl _ d a b t => [(d, 6), (a, 6), (b, 6), (t, 2)]
  | .vshr _ d a b t => [(d, 6), (a, 6), (b, 6), (t, 2)]
  | .vsha _ d a b t => [(d, 6), (a, 6), (b, 6), (t, 2)]
  | .vmov _ d a t => [(d, 6), (a, 6), (t, 2)]
  | .vbcast _ d a k t => [(d, 6), (a, 6), (k, 4), (t, 2)]
  | .viota _ d k t => [(d, 6), (k, 4), (t, 2)]
  | .vshuf _ d a b t => [(d, 6), (a, 6), (b, 6), (t, 2)]
  | .vslide _ d a k r t => [(d, 6), (a, 6), (k, 4), (r, 1), (t, 2)]
  | .vredadd _ d a t => [(d, 6), (a, 6), (t, 2)]
  | .vredmax _ d a t => [(d, 6), (a, 6), (t, 2)]
  | .vredmin _ d a t => [(d, 6), (a, 6), (t, 2)]
  | .vrediadd _ d a t => [(d, 6), (a, 6), (t, 2)]
  | .pand _ d a b => [(d, 4), (a, 4), (b, 4)]
  | .por _ d a b => [(d, 4), (a, 4), (b, 4)]
  | .pxor _ d a b => [(d, 4), (a, 4), (b, 4)]
  | .pandn _ d a b => [(d, 4), (a, 4), (b, 4)]
  | .pset d f l => [(d, 4), (f, 8), (l, 8)]
  | .vany _ a t => [(a, 4), (t, 2)]
  | .vall _ a t => [(a, 4), (t, 2)]
  | .vld _ d k c o p => [(d, 6), (k, 4), (c, 3), (o, 6), (p, 1)]
  | .vst _ d k c o p => [(d, 6), (k, 4), (c, 3), (o, 6), (p, 1)]
  | .vldx _ d k b c e => [(d, 6), (k, 4), (b, 6), (c, 3), (e, 1)]
  | .vstx _ d k b c e => [(d, 6), (k, 4), (b, 6), (c, 3), (e, 1)]
  | .aadd k i => [(k, 4), (i, 16)]
  | .ali k i => [(k, 4), (i, 16)]
  | .apail a h s k => [(a, 4), (h, 2), (s, 1), (k, 8)]
  | .pailw h c => [(h, 2), (c, 9)]
  | .pailf h c => [(h, 2), (c, 9)]
  | .paila h c s => [(h, 2), (c, 9), (s, 1)]
  | .dwait c l => [(c, 3), (l, 6)]
  | .vsig e c => [(e, 3), (c, 16)]
  | .vwait e c w => [(e, 3), (c, 16), (w, 1)]
  | .vwin t h => [(t, 4), (h, 1)]
  | .vcfg s i => [(s, 3), (i, 16)]
  | .mcel _ s k => [(s, 3), (k, 4)]
  | .mldw _ s => [(s, 3)]
  | .mpln _ p => [(p, 2)]
  | .mma _ t k r b m => [(t, 4), (k, 4), (r, 7), (b, 4), (m, 1)]
  | .mmab _ t k r b => [(t, 4), (k, 4), (r, 7), (b, 4)]
  | .mret _ t => [(t, 4)]
  | .mzro _ t => [(t, 4)]
  | .mcat _ r k => [(r, 4), (k, 4)]
  | .mwait _ k i c => [(k, 2), (i, 3), (c, 15)]
  | .madv _ h s c => [(h, 2), (s, 1), (c, 9)]
  | .msig _ e c => [(e, 3), (c, 16)]
  | .cmov _ d a l p q e => [(d, 4), (a, 4), (l, 4), (p, 1), (q, 1), (e, 2)]
  | .cfil _ d l v p e => [(d, 4), (l, 4), (v, 4), (p, 1), (e, 2)]
  | .cpush _ e k => [(e, 5), (k, 4)]
  | .cpop _ e k => [(e, 5), (k, 4)]
  | .cfol _ => []
  | .csig _ e c => [(e, 3), (c, 16)]
  | .cwait _ k i c => [(k, 2), (i, 3), (c, 15)]
  | .cadv _ h s c => [(h, 2), (s, 1), (c, 9)]
  | .xsnd _ d a l s => [(d, 4), (a, 4), (l, 4), (s, 1)]
  | .xred _ d h t => [(d, 4), (h, 2), (t, 2)]
  | .xcad _ d v o z => [(d, 4), (v, 4), (o, 4), (z, 1)]
  | .xbcs _ p d a l => [(p, 6), (d, 4), (a, 4), (l, 4)]
  | .xgat _ d a l => [(d, 4), (a, 4), (l, 4)]
  | .xsig _ e c => [(e, 3), (c, 16)]
  | .xwait _ k i c => [(k, 2), (i, 3), (c, 15)]
  | .xadv _ h s c => [(h, 2), (s, 1), (c, 9)]
  | _ => []

/-- The guard an instruction word carries; a word with no guard field counts as always. -/
def Instr.guard : Instr → Guard
  | .add gd _ _ _ => gd
  | .sub gd _ _ _ => gd
  | .and gd _ _ _ => gd
  | .or gd _ _ _ => gd
  | .xor gd _ _ _ => gd
  | .andn gd _ _ _ => gd
  | .shl gd _ _ _ => gd
  | .shr gd _ _ _ => gd
  | .sha gd _ _ _ => gd
  | .rot gd _ _ _ => gd
  | .min gd _ _ _ => gd
  | .max gd _ _ _ => gd
  | .minn gd _ _ _ => gd
  | .maxn gd _ _ _ => gd
  | .clz gd _ _ => gd
  | .ctz gd _ _ => gd
  | .popc gd _ _ => gd
  | .mul gd _ _ _ => gd
  | .mulh gd _ _ _ => gd
  | .mulhn gd _ _ _ => gd
  | .div gd _ _ _ => gd
  | .divn gd _ _ _ => gd
  | .rem gd _ _ _ => gd
  | .remn gd _ _ _ => gd
  | .addi gd _ _ _ => gd
  | .andi gd _ _ _ => gd
  | .ori gd _ _ _ => gd
  | .xori gd _ _ _ => gd
  | .shli gd _ _ _ => gd
  | .shri gd _ _ _ => gd
  | .shai gd _ _ _ => gd
  | .roti gd _ _ _ => gd
  | .li gd _ _ => gd
  | .lis gd _ _ => gd
  | .cmp gd _ _ _ _ => gd
  | .cmpn gd _ _ _ _ => gd
  | .cmpi gd _ _ _ _ => gd
  | .cmpin gd _ _ _ _ => gd
  | .kand gd _ _ _ => gd
  | .kor gd _ _ _ => gd
  | .kxor gd _ _ _ => gd
  | .kandn gd _ _ _ => gd
  | .pbt gd _ _ => gd
  | .pbtr gd _ _ => gd
  | .xfer gd _ => gd
  | .xferl gd _ _ => gd
  | .ld gd _ _ _ _ _ _ => gd
  | .ldn gd _ _ _ _ _ _ => gd
  | .st gd _ _ _ _ _ _ => gd
  | .sld gd _ _ _ _ _ _ => gd
  | .sldn gd _ _ _ _ _ _ => gd
  | .sst gd _ _ _ _ _ _ => gd
  | .amo gd _ _ _ _ _ _ => gd
  | .amor gd _ _ _ _ _ _ => gd
  | .samo gd _ _ _ _ _ _ => gd
  | .samor gd _ _ _ _ _ _ => gd
  | .cas gd _ _ _ _ _ _ _ => gd
  | .fenceWw gd => gd
  | .fenceFull gd => gd
  | .fenceAllCore gd => gd
  | .fenceAllDie gd => gd
  | .fenceAllDomain gd => gd
  | .bind gd _ _ _ _ _ => gd
  | .unbind gd _ _ _ => gd
  | .semadd gd _ _ => gd
  | .semwait gd _ _ => gd
  | .semwdec gd _ _ => gd
  | .semget gd _ _ => gd
  | .semarm gd _ _ => gd
  | .cmd gd _ _ _ => gd
  | .cmdr gd _ _ _ _ => gd
  | .cpyt gd _ _ _ _ _ => gd
  | .kpop gd _ => gd
  | .mfs gd _ _ => gd
  | .mts gd _ _ => gd
  | .swpt gd _ => gd
  | .clkdiv gd _ => gd
  | .park gd => gd
  | .yield gd => gd
  | .trap gd _ => gd
  | .brk gd _ => gd
  | .tren gd => gd
  | .tret gd => gd
  | .tsnap gd _ _ => gd
  | .wake gd _ => gd
  | .nop gd => gd
  | .mark gd => gd
  | .vadd gd _ _ _ _ => gd
  | .vsub gd _ _ _ _ => gd
  | .vmul gd _ _ _ _ => gd
  | .vfma gd _ _ _ _ => gd
  | .vfms gd _ _ _ _ => gd
  | .vmax gd _ _ _ _ => gd
  | .vmin gd _ _ _ _ => gd
  | .vabs gd _ _ _ => gd
  | .vneg gd _ _ _ => gd
  | .vclass gd _ _ _ => gd
  | .vrcp gd _ _ _ => gd
  | .vrsq gd _ _ _ => gd
  | .vexp2 gd _ _ _ => gd
  | .vlog2 gd _ _ _ => gd
  | .vtanh gd _ _ _ => gd
  | .vcvt gd _ _ _ _ => gd
  | .vrq gd _ _ _ _ => gd
  | .vpack gd _ _ _ _ => gd
  | .vunpk gd _ _ _ _ => gd
  | .vcmpf gd _ _ _ _ _ => gd
  | .vcmpi gd _ _ _ _ _ => gd
  | .viadd gd _ _ _ _ => gd
  | .visub gd _ _ _ _ => gd
  | .vimul gd _ _ _ _ => gd
  | .vimax gd _ _ _ _ => gd
  | .vimin gd _ _ _ _ => gd
  | .vimaxn gd _ _ _ _ => gd
  | .viminn gd _ _ _ _ => gd
  | .vand gd _ _ _ _ => gd
  | .vor gd _ _ _ _ => gd
  | .vxor gd _ _ _ _ => gd
  | .vandn gd _ _ _ _ => gd
  | .vshl gd _ _ _ _ => gd
  | .vshr gd _ _ _ _ => gd
  | .vsha gd _ _ _ _ => gd
  | .vmov gd _ _ _ => gd
  | .vbcast gd _ _ _ _ => gd
  | .viota gd _ _ _ => gd
  | .vshuf gd _ _ _ _ => gd
  | .vslide gd _ _ _ _ _ => gd
  | .vredadd gd _ _ _ => gd
  | .vredmax gd _ _ _ => gd
  | .vredmin gd _ _ _ => gd
  | .vrediadd gd _ _ _ => gd
  | .pand gd _ _ _ => gd
  | .por gd _ _ _ => gd
  | .pxor gd _ _ _ => gd
  | .pandn gd _ _ _ => gd
  | .vany gd _ _ => gd
  | .vall gd _ _ => gd
  | .vld gd _ _ _ _ _ => gd
  | .vst gd _ _ _ _ _ => gd
  | .vldx gd _ _ _ _ _ => gd
  | .vstx gd _ _ _ _ _ => gd
  | .mcel gd _ _ => gd
  | .mldw gd _ => gd
  | .mpln gd _ => gd
  | .mma gd _ _ _ _ _ => gd
  | .mmab gd _ _ _ _ => gd
  | .mret gd _ => gd
  | .mzro gd _ => gd
  | .mcat gd _ _ => gd
  | .mwait gd _ _ _ => gd
  | .madv gd _ _ _ => gd
  | .msig gd _ _ => gd
  | .cmov gd _ _ _ _ _ _ => gd
  | .cfil gd _ _ _ _ _ => gd
  | .cpush gd _ _ => gd
  | .cpop gd _ _ => gd
  | .cfol gd => gd
  | .csig gd _ _ => gd
  | .cwait gd _ _ _ => gd
  | .cadv gd _ _ _ => gd
  | .xsnd gd _ _ _ _ => gd
  | .xred gd _ _ _ => gd
  | .xcad gd _ _ _ _ => gd
  | .xbcs gd _ _ _ _ => gd
  | .xgat gd _ _ _ => gd
  | .xsig gd _ _ => gd
  | .xwait gd _ _ _ => gd
  | .xadv gd _ _ _ => gd
  | _ => .always

/-- The combinations of in-range operands that the manual calls illegal in an instruction word. -/
def Instr.legal : Instr → Bool
  | .ld _ _ _ _ _ r s | .ldn _ _ _ _ _ r s | .sld _ _ _ _ _ r s | .sldn _ _ _ _ _ r s => r != 3 && !(s == 1 && r == 0)
  | .st _ _ _ _ _ r s | .sst _ _ _ _ _ r s => r != 2 && !(s == 1 && r == 0)
  | .kand _ d a b | .kor _ d a b | .kxor _ d a b | .kandn _ d a b => d < 16 && a < 16 && b < 16
  | .kpop _ d | .kpop16 d => d < 16
  | .mfs _ _ x | .mts _ _ x => stateRegAssigned x
  | .blk l r => 2 ≤ l && 1 ≤ r
  | .vadd _ _ _ _ t | .vsub _ _ _ _ t | .vmul _ _ _ _ t | .vfma _ _ _ _ t | .vfms _ _ _ _ t | .vmax _ _ _ _ t | .vmin _ _ _ _ t => t != 3
  | .vabs _ _ _ t | .vneg _ _ _ t | .vclass _ _ _ t | .vrcp _ _ _ t | .vrsq _ _ _ t | .vexp2 _ _ _ t | .vlog2 _ _ _ t | .vtanh _ _ _ t => t != 3
  | .vredadd _ _ _ t | .vredmax _ _ _ t | .vredmin _ _ _ t | .vrediadd _ _ _ t | .vmov _ _ _ t => t != 3
  | .vcvt _ _ _ s f => s != f && s < 14 && f < 14
  | .vpack _ _ _ _ t => t < 2
  | .vunpk _ _ _ h t => h < 2 && t < 2
  | .vcmpf _ _ _ _ c t => c < 5 && t != 3
  | .vcmpi _ _ _ _ c t => c < 6 && t != 3
  | .viadd _ _ _ _ t | .visub _ _ _ _ t | .vimul _ _ _ _ t | .vimax _ _ _ _ t | .vimin _ _ _ _ t | .vimaxn _ _ _ _ t | .viminn _ _ _ _ t => t != 3
  | .vand _ _ _ _ t | .vor _ _ _ _ t | .vxor _ _ _ _ t | .vandn _ _ _ _ t | .vshl _ _ _ _ t | .vshr _ _ _ _ t | .vsha _ _ _ _ t => t != 3
  | .vshuf _ _ _ _ t | .vbcast _ _ _ _ t | .viota _ _ _ t | .vslide _ _ _ _ _ t | .vany _ _ t | .vall _ _ t => t != 3
  | .vcfg s i => s < 4 && (s != 0 || (i % 8 < 5 && i < 512)) && (s != 3 || i < 32)
  | .mpln _ p => p != 3
  | .mma _ _ _ r b _ | .mmab _ _ _ r b => r + 1 + 8 * b ≤ 128
  | .mwait _ k i _ | .cwait _ k i _ | .xwait _ k i _ => k < 2 || i < 4
  | _ => true

/-- A word-aligned address of admissions memory (14 R297, code 0x07). -/
def admAddr (a : Nat) : Bool := a % 4 == 0 && a ≤ 0x3FFFFC

/-- The operand limits of packets (14 R298-R303) and the units an event may name (01 R10, R13). -/
def Instr.inRange : Instr → Bool
  | .illegalInstruction w => w < 2 ^ 32
  | .qlaunch af w c ds dp bl b bs ar => af < 2 && 1 ≤ w && w < 256 && c < 4 && ds < 4096 && 1 ≤ dp && dp < 65536 && 1 ≤ bl && bl < 2 ^ 20
      && b < 2 ^ 64 && b % 64 == 0 && bs < 2 ^ 32 && ar < 2 ^ 64
  | .qcall a l | .qjump a l => admAddr a && 1 ≤ l && l ≤ 2 ^ 20 && a + 4 * l ≤ 0x400000
  | .qpred c a v k => c < 6 && admAddr a && v < 2 ^ 32 && 1 ≤ k && k < 256
  | .qloop n => 1 ≤ n && n < 65536
  | .qwrite a v => admAddr a && v < 2 ^ 32
  | .qnop l => 1 ≤ l && l ≤ 1024
  | .qsignal af h n => af < 2 && h < 2 ^ 32 && n < 2 ^ 32
  | .qwait dc h n q => dc < 2 && h < 2 ^ 32 && n < 2 ^ 32 && q < 1024
  | .illegalPacket c => c < 256
  | .notify q t _ _ _ => q < 1024 && t < 2 ^ 32
  | .queueSetRun q | .queueSetOff q | .quarClear q | .errmapClear q => q < 1024
  | .queueCountsWrite q w _ => q < 1024 && w < 3
  | .offer die => die < 12
  | .go die => die < 12
  | .drop die => die < 12
  | .place die => die < 12
  | .taskStart at_ => at_.wf
  | .taskEnd at_ => at_.wf
  | .engineCommandStart ag => ag.wf
  | .progressMark ag => ag.wf
  | .accessComplete at_ _ => at_.wf
  | .vaultWaitComplete ag => ag.wf
  | .streamWaitComplete at_ => at_.wf
  | .cpytComplete at_ _ => at_.wf
  | .transferComplete ag _ => ag.wf
  | .windowWriteAck core _ _ => core.wf
  | .cellarFetchComplete core _ => core.wf
  | .planeExpansionComplete core plane => core.wf && plane < 2
  | .churnDeadline core _ => core.wf
  | .arrayPass core => core.wf
  | .passComplete core _ => core.wf
  | .bankExchangeComplete core => core.wf
  | .doorbell core => core.wf
  | .lockstepMismatch pair => pair < 4
  | .fresRetry die _ => die < 12
  | .fresFail05 die _ => die < 12
  | .fresFail06 die _ => die < 12
  | .tlbfill die _ asid _ _ => die < 12 && asid < 65536
  | .invalAll die => die < 12
  | .invalAsid die asid => die < 12 && asid < 65536
  | .invalPage die asid => die < 12 && asid < 65536
  | .invalComplete die => die < 12
  | .inboundAccess die (.fabric spkg) _ _ => (die < 12 || die == 15) && spkg < 512
  | .inboundAccess die (.ualink u) _ _ => die < 12 && u < 4
  | .ingressNotify die q src _ _ _ _ => die < 12 && q < 64 && src < 512
  | .icbHeadWrite at_ q _ => at_.wf && q < 64
  | .icbErrSet at_ q => at_.wf && q < 64
  | .icbErrClear at_ q => at_.wf && q < 64
  | .icbSetRun die q _ => die < 12 && q < 64
  | .icbSetStopped die q => die < 12 && q < 64
  | .iauthKeyWrite die q _ => die < 12 && q < 64
  | .fabricReply station tag gen _ _ => station < 16 && tag < 4096 && gen < 16
  | .requestTimeout station tag => station < 16 && tag < 4096
  | .slotRetry station tag _ => station < 16 && tag < 4096
  | .slotAgeDiscard station tag => station < 16 && tag < 4096
  | .countsClear die => die < 12
  | .partWrite p _ => p < 4
  | .watchdogExpiry ag => ag.wf
  | .parityAlarm core _ => core.wf
  | .protocolAlarm core _ => core.wf
  | .engineReset core _ => core.wf
  | .rollingReset core _ => core.wf
  | .coreReset core => core.wf
  | .coreResetTimeout core => core.wf
  | .dieReset die => die < 12
  | .dieResetTimeout die => die < 12
  | .partitionReset p => p < 4
  | .preemptRequest at_ => at_.wf
  | .preemptionComplete at_ => at_.wf
  | .slotAbort at_ _ => at_.wf
  | .pstepRequest level => level < 8
  | .powerMessage level _ _ _ => level < 8
  | .fwreqWrite level => level < 8
  | .depthWrite depth => depth < 8
  | .bucketWrite core cls _ => core.wf && cls < 5
  | .sensorSample die _ => die < 13
  | .sensWrite die i _ => die < 13 && i < 16
  | .thermalDepthRaise die => die < 13
  | .thermalDepthFall die => die < 13
  | .liveMaskWrite which _ => which < 13
  | .vatrep die _ => die < 12
  | .vatrepComplete die _ => die < 12
  | .selfTestComplete pair => pair < 4
  | .coreResetComplete core => core.wf
  | .dieResetComplete die => die < 12
  | _ => true

/-- An instruction is well formed when every operand fits its field, its guard is legal, and no illegal combination stands in it. -/
def Instr.wf (i : Instr) : Bool :=
  i.guard.wf && i.operands.all (fun o => decide (o.1 < 2 ^ o.2)) && i.legal && i.inRange

end Sys2Proof
end

