-- ==== Sys2Proof/Decode.lean ====
section
/-! DEFINITION. The decoder, total on any words: five 32-bit maps, the 16-bit map of the SCU (05 R99-R119) and the packet map
(05 R120, 14 R297-R303). Every word that is no instruction is rejected by name. The encoder, written from the same tables, follows. -/

namespace Sys2Proof

/-- Why a word or a packet is no instruction. -/
inductive Reject where
  | size      -- bit 0 says 16 bits in an engine stream, or the other way round (05 R99-R100)
  | major     -- an unassigned major code or 16-bit OP5 (00 R6)
  | minor     -- an unassigned minor code (05 R111, R116)
  | reserved  -- a non-zero field marked 0 (05 R111, R116, R119)
  | operand   -- an illegal operand or combination (05 R112-R119)
  | packet (code : Nat)  -- a packet error with its code (14 R297)
deriving DecidableEq, Repr

/-- The instruction maps: one for the SCU and one for each engine (05 R111-R119). -/
inductive Stream where
  | scu | ve | me | ce | xe
deriving DecidableEq, Repr

/-- The guard field of a 32-bit word (05 R99). -/
def guardOf (w : Nat) : Guard := ⟨fld w 28 4, fld w 27 1⟩

/-- The SCU major map (05 R111). -/
def rawScu (w : Nat) : Except Reject Instr :=
  match fld w 1 6 with
  | 1 =>
    match fld w 7 5 with
    | 0 => .ok (.add (guardOf w) (fld w 22 5) (fld w 17 5) (fld w 12 5))
    | 1 => .ok (.sub (guardOf w) (fld w 22 5) (fld w 17 5) (fld w 12 5))
    | 2 => .ok (.and (guardOf w) (fld w 22 5) (fld w 17 5) (fld w 12 5))
    | 3 => .ok (.or (guardOf w) (fld w 22 5) (fld w 17 5) (fld w 12 5))
    | 4 => .ok (.xor (guardOf w) (fld w 22 5) (fld w 17 5) (fld w 12 5))
    | 5 => .ok (.andn (guardOf w) (fld w 22 5) (fld w 17 5) (fld w 12 5))
    | 6 => .ok (.shl (guardOf w) (fld w 22 5) (fld w 17 5) (fld w 12 5))
    | 7 => .ok (.shr (guardOf w) (fld w 22 5) (fld w 17 5) (fld w 12 5))
    | 8 => .ok (.sha (guardOf w) (fld w 22 5) (fld w 17 5) (fld w 12 5))
    | 9 => .ok (.rot (guardOf w) (fld w 22 5) (fld w 17 5) (fld w 12 5))
    | 10 => .ok (.min (guardOf w) (fld w 22 5) (fld w 17 5) (fld w 12 5))
    | 11 => .ok (.max (guardOf w) (fld w 22 5) (fld w 17 5) (fld w 12 5))
    | 12 => .ok (.minn (guardOf w) (fld w 22 5) (fld w 17 5) (fld w 12 5))
    | 13 => .ok (.maxn (guardOf w) (fld w 22 5) (fld w 17 5) (fld w 12 5))
    | 14 => if fld w 12 5 = 0 then .ok (.clz (guardOf w) (fld w 22 5) (fld w 17 5)) else .error .reserved
    | 15 => if fld w 12 5 = 0 then .ok (.ctz (guardOf w) (fld w 22 5) (fld w 17 5)) else .error .reserved
    | 16 => if fld w 12 5 = 0 then .ok (.popc (guardOf w) (fld w 22 5) (fld w 17 5)) else .error .reserved
    | _ => .error .minor
  | 2 =>
    match fld w 7 5 with
    | 0 => .ok (.mul (guardOf w) (fld w 22 5) (fld w 17 5) (fld w 12 5))
    | 1 => .ok (.mulh (guardOf w) (fld w 22 5) (fld w 17 5) (fld w 12 5))
    | 2 => .ok (.mulhn (guardOf w) (fld w 22 5) (fld w 17 5) (fld w 12 5))
    | 3 => .ok (.div (guardOf w) (fld w 22 5) (fld w 17 5) (fld w 12 5))
    | 4 => .ok (.divn (guardOf w) (fld w 22 5) (fld w 17 5) (fld w 12 5))
    | 5 => .ok (.rem (guardOf w) (fld w 22 5) (fld w 17 5) (fld w 12 5))
    | 6 => .ok (.remn (guardOf w) (fld w 22 5) (fld w 17 5) (fld w 12 5))
    | _ => .error .minor
  | 3 => .ok (.addi (guardOf w) (fld w 22 5) (fld w 17 5) (fld w 7 10))
  | 4 => .ok (.andi (guardOf w) (fld w 22 5) (fld w 17 5) (fld w 7 10))
  | 5 => .ok (.ori (guardOf w) (fld w 22 5) (fld w 17 5) (fld w 7 10))
  | 6 => .ok (.xori (guardOf w) (fld w 22 5) (fld w 17 5) (fld w 7 10))
  | 7 =>
    match fld w 15 2 with
    | 0 => if fld w 13 2 = 0 then .ok (.shli (guardOf w) (fld w 22 5) (fld w 17 5) (fld w 7 6)) else .error .reserved
    | 1 => if fld w 13 2 = 0 then .ok (.shri (guardOf w) (fld w 22 5) (fld w 17 5) (fld w 7 6)) else .error .reserved
    | 2 => if fld w 13 2 = 0 then .ok (.shai (guardOf w) (fld w 22 5) (fld w 17 5) (fld w 7 6)) else .error .reserved
    | 3 => if fld w 13 2 = 0 then .ok (.roti (guardOf w) (fld w 22 5) (fld w 17 5) (fld w 7 6)) else .error .reserved
    | _ => .error .minor
  | 8 => .ok (.li (guardOf w) (fld w 22 5) (fld w 7 15))
  | 9 => .ok (.lis (guardOf w) (fld w 22 5) (fld w 7 15))
  | 10 => if fld w 9 5 = 0 then .ok (.cmp (guardOf w) (fld w 24 3) (fld w 19 5) (fld w 14 5) (fld w 7 2)) else .error .reserved
  | 11 => if fld w 9 5 = 0 then .ok (.cmpn (guardOf w) (fld w 24 3) (fld w 19 5) (fld w 14 5) (fld w 7 2)) else .error .reserved
  | 12 => .ok (.cmpi (guardOf w) (fld w 24 3) (fld w 19 5) (fld w 9 10) (fld w 7 2))
  | 13 => .ok (.cmpin (guardOf w) (fld w 24 3) (fld w 19 5) (fld w 9 10) (fld w 7 2))
  | 14 =>
    match fld w 7 5 with
    | 0 => .ok (.kand (guardOf w) (fld w 22 5) (fld w 17 5) (fld w 12 5))
    | 1 => .ok (.kor (guardOf w) (fld w 22 5) (fld w 17 5) (fld w 12 5))
    | 2 => .ok (.kxor (guardOf w) (fld w 22 5) (fld w 17 5) (fld w 12 5))
    | 3 => .ok (.kandn (guardOf w) (fld w 22 5) (fld w 17 5) (fld w 12 5))
    | _ => .error .minor
  | 15 => if fld w 7 4 = 0 then .ok (.pbt (guardOf w) (fld w 25 2) (fld w 11 14)) else .error .reserved
  | 16 => if fld w 7 13 = 0 then .ok (.pbtr (guardOf w) (fld w 25 2) (fld w 20 5)) else .error .reserved
  | 17 => if fld w 7 18 = 0 then .ok (.xfer (guardOf w) (fld w 25 2)) else .error .reserved
  | 18 => if fld w 7 13 = 0 then .ok (.xferl (guardOf w) (fld w 25 2) (fld w 20 5)) else .error .reserved
  | 19 => .ok (.ld (guardOf w) (fld w 22 5) (fld w 17 5) (fld w 12 5) (fld w 10 2) (fld w 8 2) (fld w 7 1))
  | 20 => .ok (.ldn (guardOf w) (fld w 22 5) (fld w 17 5) (fld w 12 5) (fld w 10 2) (fld w 8 2) (fld w 7 1))
  | 21 => .ok (.st (guardOf w) (fld w 22 5) (fld w 17 5) (fld w 12 5) (fld w 10 2) (fld w 8 2) (fld w 7 1))
  | 22 => .ok (.sld (guardOf w) (fld w 22 5) (fld w 17 5) (fld w 12 5) (fld w 10 2) (fld w 8 2) (fld w 7 1))
  | 23 => .ok (.sldn (guardOf w) (fld w 22 5) (fld w 17 5) (fld w 12 5) (fld w 10 2) (fld w 8 2) (fld w 7 1))
  | 24 => .ok (.sst (guardOf w) (fld w 22 5) (fld w 17 5) (fld w 12 5) (fld w 10 2) (fld w 8 2) (fld w 7 1))
  | 25 => .ok (.amo (guardOf w) (fld w 22 5) (fld w 17 5) (fld w 12 5) (fld w 9 3) (fld w 8 1) (fld w 7 1))
  | 26 => .ok (.amor (guardOf w) (fld w 22 5) (fld w 17 5) (fld w 12 5) (fld w 9 3) (fld w 8 1) (fld w 7 1))
  | 27 => .ok (.samo (guardOf w) (fld w 22 5) (fld w 17 5) (fld w 12 5) (fld w 9 3) (fld w 8 1) (fld w 7 1))
  | 28 => .ok (.samor (guardOf w) (fld w 22 5) (fld w 17 5) (fld w 12 5) (fld w 9 3) (fld w 8 1) (fld w 7 1))
  | 29 => .ok (.cas (guardOf w) (fld w 22 5) (fld w 17 5) (fld w 12 5) (fld w 10 2) (fld w 9 1) (fld w 8 1) (fld w 7 1))
  | 30 =>
    match fld w 7 5 with
    | 0 => if fld w 12 15 = 0 then .ok (.fenceWw (guardOf w)) else .error .reserved
    | 1 => if fld w 12 15 = 0 then .ok (.fenceFull (guardOf w)) else .error .reserved
    | 2 => if fld w 12 15 = 0 then .ok (.fenceAllCore (guardOf w)) else .error .reserved
    | 3 => if fld w 12 15 = 0 then .ok (.fenceAllDie (guardOf w)) else .error .reserved
    | 4 => if fld w 12 15 = 0 then .ok (.fenceAllDomain (guardOf w)) else .error .reserved
    | _ => .error .minor
  | 31 => if fld w 9 3 = 0 then .ok (.bind (guardOf w) (fld w 22 5) (fld w 17 5) (fld w 12 5) (fld w 8 1) (fld w 7 1)) else .error .reserved
  | 32 => if fld w 8 9 = 0 then .ok (.unbind (guardOf w) (fld w 22 5) (fld w 17 5) (fld w 7 1)) else .error .reserved
  | 33 =>
    match fld w 7 5 with
    | 0 => if fld w 22 5 = 0 then .ok (.semadd (guardOf w) (fld w 17 5) (fld w 12 5)) else .error .reserved
    | 1 => if fld w 22 5 = 0 then .ok (.semwait (guardOf w) (fld w 17 5) (fld w 12 5)) else .error .reserved
    | 2 => if fld w 22 5 = 0 then .ok (.semwdec (guardOf w) (fld w 17 5) (fld w 12 5)) else .error .reserved
    | 3 => if fld w 12 5 = 0 then .ok (.semget (guardOf w) (fld w 22 5) (fld w 17 5)) else .error .reserved
    | 4 => if fld w 22 5 = 0 then .ok (.semarm (guardOf w) (fld w 17 5) (fld w 12 5)) else .error .reserved
    | _ => .error .minor
  | 34 => if fld w 9 8 = 0 then .ok (.cmd (guardOf w) (fld w 22 5) (fld w 17 5) (fld w 7 2)) else .error .reserved
  | 35 => if fld w 9 3 = 0 then .ok (.cmdr (guardOf w) (fld w 22 5) (fld w 17 5) (fld w 12 5) (fld w 7 2)) else .error .reserved
  | 36 => if fld w 9 3 = 0 then .ok (.cpyt (guardOf w) (fld w 22 5) (fld w 17 5) (fld w 12 5) (fld w 8 1) (fld w 7 1)) else .error .reserved
  | 37 => if fld w 7 15 = 0 then .ok (.kpop (guardOf w) (fld w 22 5)) else .error .reserved
  | 38 => if fld w 19 3 = 0 then .ok (.mfs (guardOf w) (fld w 22 5) (fld w 7 12)) else .error .reserved
  | 39 => if fld w 19 3 = 0 then .ok (.mts (guardOf w) (fld w 22 5) (fld w 7 12)) else .error .reserved
  | 40 =>
    match fld w 7 5 with
    | 0 => if fld w 22 5 = 0 then .ok (.swpt (guardOf w) (fld w 12 10)) else .error .reserved
    | 1 => if fld w 12 5 = 0 ∧ fld w 22 5 = 0 then .ok (.clkdiv (guardOf w) (fld w 17 5)) else .error .reserved
    | 2 => if fld w 12 15 = 0 then .ok (.park (guardOf w)) else .error .reserved
    | 3 => if fld w 12 15 = 0 then .ok (.yield (guardOf w)) else .error .reserved
    | 4 => if fld w 22 5 = 0 then .ok (.trap (guardOf w) (fld w 12 10)) else .error .reserved
    | 5 => if fld w 22 5 = 0 then .ok (.brk (guardOf w) (fld w 12 10)) else .error .reserved
    | _ => .error .minor
  | 41 =>
    match fld w 7 5 with
    | 0 => if fld w 12 15 = 0 then .ok (.tren (guardOf w)) else .error .reserved
    | 1 => if fld w 12 15 = 0 then .ok (.tret (guardOf w)) else .error .reserved
    | 2 => if fld w 22 5 = 0 then .ok (.tsnap (guardOf w) (fld w 17 5) (fld w 12 5)) else .error .reserved
    | 3 => if fld w 12 5 = 0 ∧ fld w 22 5 = 0 then .ok (.wake (guardOf w) (fld w 17 5)) else .error .reserved
    | _ => .error .minor
  | 63 => if fld w 7 20 = 0 then .ok (.nop (guardOf w)) else .error .reserved
  | _ => .error .major

/-- The VE major map (05 R116). -/
def rawVe (w : Nat) : Except Reject Instr :=
  match fld w 1 6 with
  | 0 => if fld w 7 1 = 0 then .ok (.blk (fld w 22 10) (fld w 8 14)) else .error .reserved
  | 1 => .ok (.vadd (guardOf w) (fld w 21 6) (fld w 15 6) (fld w 9 6) (fld w 7 2))
  | 2 => .ok (.vsub (guardOf w) (fld w 21 6) (fld w 15 6) (fld w 9 6) (fld w 7 2))
  | 3 => .ok (.vmul (guardOf w) (fld w 21 6) (fld w 15 6) (fld w 9 6) (fld w 7 2))
  | 4 => .ok (.vfma (guardOf w) (fld w 21 6) (fld w 15 6) (fld w 9 6) (fld w 7 2))
  | 5 => .ok (.vfms (guardOf w) (fld w 21 6) (fld w 15 6) (fld w 9 6) (fld w 7 2))
  | 6 => .ok (.vmax (guardOf w) (fld w 21 6) (fld w 15 6) (fld w 9 6) (fld w 7 2))
  | 7 => .ok (.vmin (guardOf w) (fld w 21 6) (fld w 15 6) (fld w 9 6) (fld w 7 2))
  | 8 =>
    match fld w 11 4 with
    | 0 => if fld w 9 2 = 0 then .ok (.vabs (guardOf w) (fld w 21 6) (fld w 15 6) (fld w 7 2)) else .error .reserved
    | 1 => if fld w 9 2 = 0 then .ok (.vneg (guardOf w) (fld w 21 6) (fld w 15 6) (fld w 7 2)) else .error .reserved
    | 2 => if fld w 9 2 = 0 then .ok (.vclass (guardOf w) (fld w 21 6) (fld w 15 6) (fld w 7 2)) else .error .reserved
    | 3 => if fld w 9 2 = 0 then .ok (.vrcp (guardOf w) (fld w 21 6) (fld w 15 6) (fld w 7 2)) else .error .reserved
    | 4 => if fld w 9 2 = 0 then .ok (.vrsq (guardOf w) (fld w 21 6) (fld w 15 6) (fld w 7 2)) else .error .reserved
    | 5 => if fld w 9 2 = 0 then .ok (.vexp2 (guardOf w) (fld w 21 6) (fld w 15 6) (fld w 7 2)) else .error .reserved
    | 6 => if fld w 9 2 = 0 then .ok (.vlog2 (guardOf w) (fld w 21 6) (fld w 15 6) (fld w 7 2)) else .error .reserved
    | 7 => if fld w 9 2 = 0 then .ok (.vtanh (guardOf w) (fld w 21 6) (fld w 15 6) (fld w 7 2)) else .error .reserved
    | _ => .error .minor
  | 9 => .ok (.vcvt (guardOf w) (fld w 21 6) (fld w 15 6) (fld w 11 4) (fld w 7 4))
  | 10 => .ok (.vrq (guardOf w) (fld w 21 6) (fld w 15 6) (fld w 9 6) (fld w 7 2))
  | 11 => .ok (.vpack (guardOf w) (fld w 21 6) (fld w 15 6) (fld w 9 6) (fld w 7 2))
  | 12 => .ok (.vunpk (guardOf w) (fld w 21 6) (fld w 15 6) (fld w 9 6) (fld w 7 2))
  | 13 => .ok (.vcmpf (guardOf w) (fld w 24 3) (fld w 18 6) (fld w 12 6) (fld w 9 3) (fld w 7 2))
  | 14 => .ok (.vcmpi (guardOf w) (fld w 24 3) (fld w 18 6) (fld w 12 6) (fld w 9 3) (fld w 7 2))
  | 15 => .ok (.viadd (guardOf w) (fld w 21 6) (fld w 15 6) (fld w 9 6) (fld w 7 2))
  | 16 => .ok (.visub (guardOf w) (fld w 21 6) (fld w 15 6) (fld w 9 6) (fld w 7 2))
  | 17 => .ok (.vimul (guardOf w) (fld w 21 6) (fld w 15 6) (fld w 9 6) (fld w 7 2))
  | 18 => .ok (.vimax (guardOf w) (fld w 21 6) (fld w 15 6) (fld w 9 6) (fld w 7 2))
  | 19 => .ok (.vimin (guardOf w) (fld w 21 6) (fld w 15 6) (fld w 9 6) (fld w 7 2))
  | 20 => .ok (.vimaxn (guardOf w) (fld w 21 6) (fld w 15 6) (fld w 9 6) (fld w 7 2))
  | 21 => .ok (.viminn (guardOf w) (fld w 21 6) (fld w 15 6) (fld w 9 6) (fld w 7 2))
  | 22 => .ok (.vand (guardOf w) (fld w 21 6) (fld w 15 6) (fld w 9 6) (fld w 7 2))
  | 23 => .ok (.vor (guardOf w) (fld w 21 6) (fld w 15 6) (fld w 9 6) (fld w 7 2))
  | 24 => .ok (.vxor (guardOf w) (fld w 21 6) (fld w 15 6) (fld w 9 6) (fld w 7 2))
  | 25 => .ok (.vandn (guardOf w) (fld w 21 6) (fld w 15 6) (fld w 9 6) (fld w 7 2))
  | 26 => .ok (.vshl (guardOf w) (fld w 21 6) (fld w 15 6) (fld w 9 6) (fld w 7 2))
  | 27 => .ok (.vshr (guardOf w) (fld w 21 6) (fld w 15 6) (fld w 9 6) (fld w 7 2))
  | 28 => .ok (.vsha (guardOf w) (fld w 21 6) (fld w 15 6) (fld w 9 6) (fld w 7 2))
  | 29 => if fld w 9 6 = 0 then .ok (.vmov (guardOf w) (fld w 21 6) (fld w 15 6) (fld w 7 2)) else .error .reserved
  | 30 => if fld w 9 2 = 0 then .ok (.vbcast (guardOf w) (fld w 21 6) (fld w 15 6) (fld w 11 4) (fld w 7 2)) else .error .reserved
  | 31 => if fld w 9 2 = 0 ∧ fld w 15 6 = 0 then .ok (.viota (guardOf w) (fld w 21 6) (fld w 11 4) (fld w 7 2)) else .error .reserved
  | 32 => .ok (.vshuf (guardOf w) (fld w 21 6) (fld w 15 6) (fld w 9 6) (fld w 7 2))
  | 33 => if fld w 10 1 = 0 then .ok (.vslide (guardOf w) (fld w 21 6) (fld w 15 6) (fld w 11 4) (fld w 9 1) (fld w 7 2)) else .error .reserved
  | 34 =>
    match fld w 11 4 with
    | 0 => if fld w 9 2 = 0 then .ok (.vredadd (guardOf w) (fld w 21 6) (fld w 15 6) (fld w 7 2)) else .error .reserved
    | 1 => if fld w 9 2 = 0 then .ok (.vredmax (guardOf w) (fld w 21 6) (fld w 15 6) (fld w 7 2)) else .error .reserved
    | 2 => if fld w 9 2 = 0 then .ok (.vredmin (guardOf w) (fld w 21 6) (fld w 15 6) (fld w 7 2)) else .error .reserved
    | 3 => if fld w 9 2 = 0 then .ok (.vrediadd (guardOf w) (fld w 21 6) (fld w 15 6) (fld w 7 2)) else .error .reserved
    | _ => .error .minor
  | 35 =>
    match fld w 13 2 with
    | 0 => if fld w 7 6 = 0 then .ok (.pand (guardOf w) (fld w 23 4) (fld w 19 4) (fld w 15 4)) else .error .reserved
    | 1 => if fld w 7 6 = 0 then .ok (.por (guardOf w) (fld w 23 4) (fld w 19 4) (fld w 15 4)) else .error .reserved
    | 2 => if fld w 7 6 = 0 then .ok (.pxor (guardOf w) (fld w 23 4) (fld w 19 4) (fld w 15 4)) else .error .reserved
    | 3 => if fld w 7 6 = 0 then .ok (.pandn (guardOf w) (fld w 23 4) (fld w 19 4) (fld w 15 4)) else .error .reserved
    | _ => .error .minor
  | 36 => if fld w 27 5 = 30 then .ok (.pset (fld w 23 4) (fld w 15 8) (fld w 7 8)) else .error .reserved
  | 37 => if fld w 9 10 = 0 ∧ fld w 23 4 = 0 then .ok (.vany (guardOf w) (fld w 19 4) (fld w 7 2)) else .error .reserved
  | 38 => if fld w 9 10 = 0 ∧ fld w 23 4 = 0 then .ok (.vall (guardOf w) (fld w 19 4) (fld w 7 2)) else .error .reserved
  | 39 => .ok (.vld (guardOf w) (fld w 21 6) (fld w 17 4) (fld w 14 3) (fld w 8 6) (fld w 7 1))
  | 40 => .ok (.vst (guardOf w) (fld w 21 6) (fld w 17 4) (fld w 14 3) (fld w 8 6) (fld w 7 1))
  | 41 => .ok (.vldx (guardOf w) (fld w 21 6) (fld w 17 4) (fld w 11 6) (fld w 8 3) (fld w 7 1))
  | 42 => .ok (.vstx (guardOf w) (fld w 21 6) (fld w 17 4) (fld w 11 6) (fld w 8 3) (fld w 7 1))
  | 43 => if fld w 27 5 = 30 then .ok (.aadd (fld w 23 4) (fld w 7 16)) else .error .reserved
  | 44 => if fld w 27 5 = 30 then .ok (.ali (fld w 23 4) (fld w 7 16)) else .error .reserved
  | 45 => if fld w 15 5 = 0 ∧ fld w 27 5 = 30 then .ok (.apail (fld w 23 4) (fld w 21 2) (fld w 20 1) (fld w 7 8)) else .error .reserved
  | 46 => if fld w 7 9 = 0 ∧ fld w 27 5 = 30 then .ok (.pailw (fld w 25 2) (fld w 16 9)) else .error .reserved
  | 47 => if fld w 7 9 = 0 ∧ fld w 27 5 = 30 then .ok (.pailf (fld w 25 2) (fld w 16 9)) else .error .reserved
  | 48 => if fld w 7 8 = 0 ∧ fld w 27 5 = 30 then .ok (.paila (fld w 25 2) (fld w 16 9) (fld w 15 1)) else .error .reserved
  | 49 => if fld w 7 11 = 0 ∧ fld w 27 5 = 30 then .ok (.dwait (fld w 24 3) (fld w 18 6)) else .error .reserved
  | 50 => if fld w 7 1 = 0 ∧ fld w 27 5 = 30 then .ok (.vsig (fld w 24 3) (fld w 8 16)) else .error .reserved
  | 51 => if fld w 27 5 = 30 then .ok (.vwait (fld w 24 3) (fld w 8 16) (fld w 7 1)) else .error .reserved
  | 52 => if fld w 7 15 = 0 ∧ fld w 27 5 = 30 then .ok (.vwin (fld w 23 4) (fld w 22 1)) else .error .reserved
  | 53 => if fld w 7 1 = 0 ∧ fld w 27 5 = 30 then .ok (.vcfg (fld w 24 3) (fld w 8 16)) else .error .reserved
  | 62 => if fld w 7 20 = 0 then .ok (.mark (guardOf w)) else .error .reserved
  | 63 => if fld w 7 20 = 0 then .ok (.nop (guardOf w)) else .error .reserved
  | _ => .error .major

/-- The ME major map (05 R119). -/
def rawMe (w : Nat) : Except Reject Instr :=
  match fld w 1 6 with
  | 0 => if fld w 7 1 = 0 then .ok (.blk (fld w 22 10) (fld w 8 14)) else .error .reserved
  | 1 => if fld w 7 13 = 0 then .ok (.mcel (guardOf w) (fld w 24 3) (fld w 20 4)) else .error .reserved
  | 2 => if fld w 7 17 = 0 then .ok (.mldw (guardOf w) (fld w 24 3)) else .error .reserved
  | 3 => if fld w 7 18 = 0 then .ok (.mpln (guardOf w) (fld w 25 2)) else .error .reserved
  | 4 => .ok (.mma (guardOf w) (fld w 23 4) (fld w 19 4) (fld w 12 7) (fld w 8 4) (fld w 7 1))
  | 5 => if fld w 7 1 = 0 then .ok (.mmab (guardOf w) (fld w 23 4) (fld w 19 4) (fld w 12 7) (fld w 8 4)) else .error .reserved
  | 6 => if fld w 7 16 = 0 then .ok (.mret (guardOf w) (fld w 23 4)) else .error .reserved
  | 7 => if fld w 7 16 = 0 then .ok (.mzro (guardOf w) (fld w 23 4)) else .error .reserved
  | 8 => if fld w 7 12 = 0 then .ok (.mcat (guardOf w) (fld w 23 4) (fld w 19 4)) else .error .reserved
  | 9 => .ok (.mwait (guardOf w) (fld w 25 2) (fld w 22 3) (fld w 7 15))
  | 10 => if fld w 7 8 = 0 then .ok (.madv (guardOf w) (fld w 25 2) (fld w 24 1) (fld w 15 9)) else .error .reserved
  | 11 => if fld w 7 1 = 0 then .ok (.msig (guardOf w) (fld w 24 3) (fld w 8 16)) else .error .reserved
  | 62 => if fld w 7 20 = 0 then .ok (.mark (guardOf w)) else .error .reserved
  | 63 => if fld w 7 20 = 0 then .ok (.nop (guardOf w)) else .error .reserved
  | _ => .error .major

/-- The CE major map (05 R119). -/
def rawCe (w : Nat) : Except Reject Instr :=
  match fld w 1 6 with
  | 0 => if fld w 7 1 = 0 then .ok (.blk (fld w 22 10) (fld w 8 14)) else .error .reserved
  | 1 => if fld w 7 4 = 0 then .ok (.cmov (guardOf w) (fld w 23 4) (fld w 19 4) (fld w 15 4) (fld w 14 1) (fld w 13 1) (fld w 11 2)) else .error .reserved
  | 2 => if fld w 7 4 = 0 ∧ fld w 13 1 = 0 then .ok (.cfil (guardOf w) (fld w 23 4) (fld w 19 4) (fld w 15 4) (fld w 14 1) (fld w 11 2)) else .error .reserved
  | 3 => if fld w 7 11 = 0 then .ok (.cpush (guardOf w) (fld w 22 5) (fld w 18 4)) else .error .reserved
  | 4 => if fld w 7 11 = 0 then .ok (.cpop (guardOf w) (fld w 22 5) (fld w 18 4)) else .error .reserved
  | 5 => if fld w 7 20 = 0 then .ok (.cfol (guardOf w)) else .error .reserved
  | 6 => if fld w 7 1 = 0 then .ok (.csig (guardOf w) (fld w 24 3) (fld w 8 16)) else .error .reserved
  | 7 => .ok (.cwait (guardOf w) (fld w 25 2) (fld w 22 3) (fld w 7 15))
  | 8 => if fld w 7 8 = 0 then .ok (.cadv (guardOf w) (fld w 25 2) (fld w 24 1) (fld w 15 9)) else .error .reserved
  | 62 => if fld w 7 20 = 0 then .ok (.mark (guardOf w)) else .error .reserved
  | 63 => if fld w 7 20 = 0 then .ok (.nop (guardOf w)) else .error .reserved
  | _ => .error .major

/-- The XE major map (05 R119). -/
def rawXe (w : Nat) : Except Reject Instr :=
  match fld w 1 6 with
  | 0 => if fld w 7 1 = 0 then .ok (.blk (fld w 22 10) (fld w 8 14)) else .error .reserved
  | 1 => if fld w 7 7 = 0 then .ok (.xsnd (guardOf w) (fld w 23 4) (fld w 19 4) (fld w 15 4) (fld w 14 1)) else .error .reserved
  | 2 => if fld w 7 12 = 0 then .ok (.xred (guardOf w) (fld w 23 4) (fld w 21 2) (fld w 19 2)) else .error .reserved
  | 3 => if fld w 7 7 = 0 then .ok (.xcad (guardOf w) (fld w 23 4) (fld w 19 4) (fld w 15 4) (fld w 14 1)) else .error .reserved
  | 4 => if fld w 7 2 = 0 then .ok (.xbcs (guardOf w) (fld w 21 6) (fld w 17 4) (fld w 13 4) (fld w 9 4)) else .error .reserved
  | 5 => if fld w 7 8 = 0 then .ok (.xgat (guardOf w) (fld w 23 4) (fld w 19 4) (fld w 15 4)) else .error .reserved
  | 6 => if fld w 7 1 = 0 then .ok (.xsig (guardOf w) (fld w 24 3) (fld w 8 16)) else .error .reserved
  | 7 => .ok (.xwait (guardOf w) (fld w 25 2) (fld w 22 3) (fld w 7 15))
  | 8 => if fld w 7 8 = 0 then .ok (.xadv (guardOf w) (fld w 25 2) (fld w 24 1) (fld w 15 9)) else .error .reserved
  | 62 => if fld w 7 20 = 0 then .ok (.mark (guardOf w)) else .error .reserved
  | 63 => if fld w 7 20 = 0 then .ok (.nop (guardOf w)) else .error .reserved
  | _ => .error .major

/-- The 16-bit forms of the SCU (05 R113). -/
def raw16 (w : Nat) : Except Reject Instr :=
  match fld w 1 5 with
  | 1 => .ok (.mov16 (fld w 11 5) (fld w 6 5))
  | 2 => .ok (.add16 (fld w 11 5) (fld w 6 5))
  | 3 => .ok (.sub16 (fld w 11 5) (fld w 6 5))
  | 4 => .ok (.and16 (fld w 11 5) (fld w 6 5))
  | 5 => .ok (.or16 (fld w 11 5) (fld w 6 5))
  | 6 => .ok (.xor16 (fld w 11 5) (fld w 6 5))
  | 7 => .ok (.addi16 (fld w 11 5) (fld w 6 5))
  | 8 => .ok (.li16 (fld w 11 5) (fld w 6 5))
  | 9 => .ok (.shli16 (fld w 11 5) (fld w 6 5))
  | 10 => .ok (.shri16 (fld w 11 5) (fld w 6 5))
  | 11 => if fld w 6 8 = 0 then .ok (.xfer16 (fld w 14 2)) else .error .reserved
  | 12 => if fld w 6 5 = 0 then .ok (.kpop16 (fld w 11 5)) else .error .reserved
  | 13 => if fld w 6 10 = 0 then .ok (.nop16) else .error .reserved
  | _ => .error .major

/-- Keeps only well-formed instructions (05 R101, R112-R119). -/
def keepLegal (i : Instr) : Except Reject Instr := if i.wf then .ok i else .error .operand

/-- Decodes a 32-bit word of a stream (05 R99). -/
def decode32 (m : Stream) (w : Nat) : Except Reject Instr :=
  if w % 2 = 0 then .error .size
  else
    match (match m with
      | .scu => rawScu w | .ve => rawVe w | .me => rawMe w | .ce => rawCe w | .xe => rawXe w) with
    | .ok i => keepLegal i
    | .error e => .error e

/-- Decodes a 16-bit word, which only the SCU has (05 R99-R100). -/
def decode16 (w : Nat) : Except Reject Instr :=
  if w % 2 = 1 then .error .size
  else
    match raw16 w with
    | .ok i => keepLegal i
    | .error e => .error e

/-- The 32-bit words of a packet, the n-th one or 0. -/
def pw (ws : List Nat) (n : Nat) : Nat := ws.getD n 0

/-- The length the header of each type must give (14 R298-R303); none for QNOP, whose length is free. -/
def packetLen : Nat → Option Nat
  | 1 => some 10 | 2 => some 3 | 3 => some 1 | 4 => some 4 | 5 => some 2 | 6 => some 1 | 7 => some 3 | 8 => some 3 | 9 => some 4
  | 10 => some 1 | 11 => some 3 | _ => none

/-- The bits of a packet that are reserved, as (word, low bit, width): a set one is error 0x03 (14 R297-R303). -/
def packetReserved : Nat → List (Nat × Nat × Nat)
  | 1 => [(0, 9, 7), (1, 18, 6), (1, 12, 4), (2, 16, 16), (3, 20, 12), (7, 0, 32)]
  | 2 | 11 | 3 | 6 | 10 | 7 | 12 => [(0, 8, 8)]
  | 4 => [(0, 11, 5), (3, 8, 24)]
  | 5 => [(0, 8, 8), (1, 16, 16)]
  | 8 => [(0, 9, 7)]
  | 9 => [(0, 9, 7), (3, 10, 22)]
  | _ => []

/-- The packet a legal header and its words stand for. -/
def rawPacket (ws : List Nat) : Option Instr :=
  match fld (pw ws 0) 0 8 with
  | 1 => some (.qlaunch (fld (pw ws 0) 8 1) (fld (pw ws 1) 24 8) (fld (pw ws 1) 16 2) (fld (pw ws 1) 0 12) (fld (pw ws 2) 0 16)
      (fld (pw ws 3) 0 20) (pw ws 4 + pw ws 5 * 2 ^ 32) (pw ws 6) (pw ws 8 + pw ws 9 * 2 ^ 32))
  | 2 => some (.qcall (pw ws 1) (pw ws 2))
  | 3 => some .qret
  | 4 => some (.qpred (fld (pw ws 0) 8 3) (pw ws 1) (pw ws 2) (fld (pw ws 3) 0 8))
  | 5 => some (.qloop (fld (pw ws 1) 0 16))
  | 6 => some .qlend
  | 7 => some (.qwrite (pw ws 1) (pw ws 2))
  | 8 => some (.qsignal (fld (pw ws 0) 8 1) (pw ws 1) (pw ws 2))
  | 9 => some (.qwait (fld (pw ws 0) 8 1) (pw ws 1) (pw ws 2) (fld (pw ws 3) 0 10))
  | 10 => some .qfence
  | 11 => some (.qjump (pw ws 1) (pw ws 2))
  | 12 => some (.qnop (fld (pw ws 0) 16 16))
  | _ => none

/-- The error code of a packet whose operands break a limit: 0x03, or 0x07 where only its admissions-memory address is at fault
(14 R297). -/
def operandCode : Instr → Nat
  | .qcall _ l | .qjump _ l => if 1 ≤ l && l ≤ 2 ^ 20 then 0x07 else 0x03
  | .qpred c _ _ k => if c < 6 && 1 ≤ k && k < 256 then 0x07 else 0x03
  | .qwrite _ _ => 0x07
  | _ => 0x03

/-- Decodes a packet from its words, checking type, length, reserved bits and operands in that order (14 R297). -/
def decodePacket (ws : List Nat) : Except Reject Instr :=
  let h := pw ws 0
  let ty := fld h 0 8
  if ty = 0 ∨ 13 ≤ ty then .error (.packet 0x01)
  else if (match packetLen ty with | some n => fld h 16 16 != n | none => fld h 16 16 == 0 || 1024 < fld h 16 16) then .error (.packet 0x02)
  else if (packetReserved ty).any (fun r => decide (fld (pw ws r.1) r.2.1 r.2.2 ≠ 0)) then .error (.packet 0x03)
  else
    match rawPacket ws with
    | some i => if i.wf then .ok i else .error (.packet (operandCode i))
    | none => .error (.packet 0x01)

/-- The bits of a guard in a 32-bit word (05 R99). -/
def Guard.bits (gd : Guard) : Nat := gd.sel * 2 ^ 28 + gd.neg * 2 ^ 27

/-- The fixed bits of an instruction word and the operands with the low bits of their fields, from the formats of 05 R103 and
R110-R119; 0 and nothing for a row that has no instruction word. -/
def Instr.format : Instr → Nat × List (Nat × Nat)
  | .add _ d a b => (0x3, [(d, 22), (a, 17), (b, 12)])
  | .sub _ d a b => (0x83, [(d, 22), (a, 17), (b, 12)])
  | .and _ d a b => (0x103, [(d, 22), (a, 17), (b, 12)])
  | .or _ d a b => (0x183, [(d, 22), (a, 17), (b, 12)])
  | .xor _ d a b => (0x203, [(d, 22), (a, 17), (b, 12)])
  | .andn _ d a b => (0x283, [(d, 22), (a, 17), (b, 12)])
  | .shl _ d a b => (0x303, [(d, 22), (a, 17), (b, 12)])
  | .shr _ d a b => (0x383, [(d, 22), (a, 17), (b, 12)])
  | .sha _ d a b => (0x403, [(d, 22), (a, 17), (b, 12)])
  | .rot _ d a b => (0x483, [(d, 22), (a, 17), (b, 12)])
  | .min _ d a b => (0x503, [(d, 22), (a, 17), (b, 12)])
  | .max _ d a b => (0x583, [(d, 22), (a, 17), (b, 12)])
  | .minn _ d a b => (0x603, [(d, 22), (a, 17), (b, 12)])
  | .maxn _ d a b => (0x683, [(d, 22), (a, 17), (b, 12)])
  | .clz _ d a => (0x703, [(d, 22), (a, 17)])
  | .ctz _ d a => (0x783, [(d, 22), (a, 17)])
  | .popc _ d a => (0x803, [(d, 22), (a, 17)])
  | .mul _ d a b => (0x5, [(d, 22), (a, 17), (b, 12)])
  | .mulh _ d a b => (0x85, [(d, 22), (a, 17), (b, 12)])
  | .mulhn _ d a b => (0x105, [(d, 22), (a, 17), (b, 12)])
  | .div _ d a b => (0x185, [(d, 22), (a, 17), (b, 12)])
  | .divn _ d a b => (0x205, [(d, 22), (a, 17), (b, 12)])
  | .rem _ d a b => (0x285, [(d, 22), (a, 17), (b, 12)])
  | .remn _ d a b => (0x305, [(d, 22), (a, 17), (b, 12)])
  | .addi _ d a i => (0x7, [(d, 22), (a, 17), (i, 7)])
  | .andi _ d a i => (0x9, [(d, 22), (a, 17), (i, 7)])
  | .ori _ d a i => (0xB, [(d, 22), (a, 17), (i, 7)])
  | .xori _ d a i => (0xD, [(d, 22), (a, 17), (i, 7)])
  | .shli _ d a s => (0xF, [(d, 22), (a, 17), (s, 7)])
  | .shri _ d a s => (0x800F, [(d, 22), (a, 17), (s, 7)])
  | .shai _ d a s => (0x1000F, [(d, 22), (a, 17), (s, 7)])
  | .roti _ d a s => (0x1800F, [(d, 22), (a, 17), (s, 7)])
  | .li _ d i => (0x11, [(d, 22), (i, 7)])
  | .lis _ d i => (0x13, [(d, 22), (i, 7)])
  | .cmp _ k a b c => (0x15, [(k, 24), (a, 19), (b, 14), (c, 7)])
  | .cmpn _ k a b c => (0x17, [(k, 24), (a, 19), (b, 14), (c, 7)])
  | .cmpi _ k a i c => (0x19, [(k, 24), (a, 19), (i, 9), (c, 7)])
  | .cmpin _ k a i c => (0x1B, [(k, 24), (a, 19), (i, 9), (c, 7)])
  | .kand _ d a b => (0x1D, [(d, 22), (a, 17), (b, 12)])
  | .kor _ d a b => (0x9D, [(d, 22), (a, 17), (b, 12)])
  | .kxor _ d a b => (0x11D, [(d, 22), (a, 17), (b, 12)])
  | .kandn _ d a b => (0x19D, [(d, 22), (a, 17), (b, 12)])
  | .pbt _ t s => (0x1F, [(t, 25), (s, 11)])
  | .pbtr _ t a => (0x21, [(t, 25), (a, 20)])
  | .xfer _ t => (0x23, [(t, 25)])
  | .xferl _ t d => (0x25, [(t, 25), (d, 20)])
  | .ld _ d a o z r s => (0x27, [(d, 22), (a, 17), (o, 12), (z, 10), (r, 8), (s, 7)])
  | .ldn _ d a o z r s => (0x29, [(d, 22), (a, 17), (o, 12), (z, 10), (r, 8), (s, 7)])
  | .st _ d a o z r s => (0x2B, [(d, 22), (a, 17), (o, 12), (z, 10), (r, 8), (s, 7)])
  | .sld _ d a o z r s => (0x2D, [(d, 22), (a, 17), (o, 12), (z, 10), (r, 8), (s, 7)])
  | .sldn _ d a o z r s => (0x2F, [(d, 22), (a, 17), (o, 12), (z, 10), (r, 8), (s, 7)])
  | .sst _ d a o z r s => (0x31, [(d, 22), (a, 17), (o, 12), (z, 10), (r, 8), (s, 7)])
  | .amo _ d a b f z o => (0x33, [(d, 22), (a, 17), (b, 12), (f, 9), (z, 8), (o, 7)])
  | .amor _ d a b f z o => (0x35, [(d, 22), (a, 17), (b, 12), (f, 9), (z, 8), (o, 7)])
  | .samo _ d a b f z o => (0x37, [(d, 22), (a, 17), (b, 12), (f, 9), (z, 8), (o, 7)])
  | .samor _ d a b f z o => (0x39, [(d, 22), (a, 17), (b, 12), (f, 9), (z, 8), (o, 7)])
  | .cas _ d a b p f z s => (0x3B, [(d, 22), (a, 17), (b, 12), (p, 10), (f, 9), (z, 8), (s, 7)])
  | .fenceWw _ => (0x3D, [])
  | .fenceFull _ => (0xBD, [])
  | .fenceAllCore _ => (0x13D, [])
  | .fenceAllDie _ => (0x1BD, [])
  | .fenceAllDomain _ => (0x23D, [])
  | .bind _ d a b k s => (0x3F, [(d, 22), (a, 17), (b, 12), (k, 8), (s, 7)])
  | .unbind _ d a s => (0x41, [(d, 22), (a, 17), (s, 7)])
  | .semadd _ a b => (0x43, [(a, 17), (b, 12)])
  | .semwait _ a b => (0xC3, [(a, 17), (b, 12)])
  | .semwdec _ a b => (0x143, [(a, 17), (b, 12)])
  | .semget _ d a => (0x1C3, [(d, 22), (a, 17)])
  | .semarm _ a b => (0x243, [(a, 17), (b, 12)])
  | .cmd _ d a e => (0x45, [(d, 22), (a, 17), (e, 7)])
  | .cmdr _ d a b e => (0x47, [(d, 22), (a, 17), (b, 12), (e, 7)])
  | .cpyt _ d a b s t => (0x49, [(d, 22), (a, 17), (b, 12), (s, 8), (t, 7)])
  | .kpop _ d => (0x4B, [(d, 22)])
  | .mfs _ d x => (0x4D, [(d, 22), (x, 7)])
  | .mts _ d x => (0x4F, [(d, 22), (x, 7)])
  | .swpt _ i => (0x51, [(i, 12)])
  | .clkdiv _ a => (0xD1, [(a, 17)])
  | .park _ => (0x151, [])
  | .yield _ => (0x1D1, [])
  | .trap _ c => (0x251, [(c, 12)])
  | .brk _ c => (0x2D1, [(c, 12)])
  | .tren _ => (0x53, [])
  | .tret _ => (0xD3, [])
  | .tsnap _ a b => (0x153, [(a, 17), (b, 12)])
  | .wake _ a => (0x1D3, [(a, 17)])
  | .nop _ => (0x7F, [])
  | .mov16 d a => (0x2, [(d, 11), (a, 6)])
  | .add16 d a => (0x4, [(d, 11), (a, 6)])
  | .sub16 d a => (0x6, [(d, 11), (a, 6)])
  | .and16 d a => (0x8, [(d, 11), (a, 6)])
  | .or16 d a => (0xA, [(d, 11), (a, 6)])
  | .xor16 d a => (0xC, [(d, 11), (a, 6)])
  | .addi16 d i => (0xE, [(d, 11), (i, 6)])
  | .li16 d i => (0x10, [(d, 11), (i, 6)])
  | .shli16 d s => (0x12, [(d, 11), (s, 6)])
  | .shri16 d s => (0x14, [(d, 11), (s, 6)])
  | .xfer16 t => (0x16, [(t, 14)])
  | .kpop16 d => (0x18, [(d, 11)])
  | .nop16 => (0x1A, [])
  | .blk l r => (0x1, [(l, 22), (r, 8)])
  | .mark _ => (0x7D, [])
  | .vadd _ d a b t => (0x3, [(d, 21), (a, 15), (b, 9), (t, 7)])
  | .vsub _ d a b t => (0x5, [(d, 21), (a, 15), (b, 9), (t, 7)])
  | .vmul _ d a b t => (0x7, [(d, 21), (a, 15), (b, 9), (t, 7)])
  | .vfma _ d a b t => (0x9, [(d, 21), (a, 15), (b, 9), (t, 7)])
  | .vfms _ d a b t => (0xB, [(d, 21), (a, 15), (b, 9), (t, 7)])
  | .vmax _ d a b t => (0xD, [(d, 21), (a, 15), (b, 9), (t, 7)])
  | .vmin _ d a b t => (0xF, [(d, 21), (a, 15), (b, 9), (t, 7)])
  | .vabs _ d a t => (0x11, [(d, 21), (a, 15), (t, 7)])
  | .vneg _ d a t => (0x811, [(d, 21), (a, 15), (t, 7)])
  | .vclass _ d a t => (0x1011, [(d, 21), (a, 15), (t, 7)])
  | .vrcp _ d a t => (0x1811, [(d, 21), (a, 15), (t, 7)])
  | .vrsq _ d a t => (0x2011, [(d, 21), (a, 15), (t, 7)])
  | .vexp2 _ d a t => (0x2811, [(d, 21), (a, 15), (t, 7)])
  | .vlog2 _ d a t => (0x3011, [(d, 21), (a, 15), (t, 7)])
  | .vtanh _ d a t => (0x3811, [(d, 21), (a, 15), (t, 7)])
  | .vcvt _ d a s f => (0x13, [(d, 21), (a, 15), (s, 11), (f, 7)])
  | .vrq _ d a b t => (0x15, [(d, 21), (a, 15), (b, 9), (t, 7)])
  | .vpack _ d a b t => (0x17, [(d, 21), (a, 15), (b, 9), (t, 7)])
  | .vunpk _ d a h t => (0x19, [(d, 21), (a, 15), (h, 9), (t, 7)])
  | .vcmpf _ p a b c t => (0x1B, [(p, 24), (a, 18), (b, 12), (c, 9), (t, 7)])
  | .vcmpi _ p a b c t => (0x1D, [(p, 24), (a, 18), (b, 12), (c, 9), (t, 7)])
  | .viadd _ d a b t => (0x1F, [(d, 21), (a, 15), (b, 9), (t, 7)])
  | .visub _ d a b t => (0x21, [(d, 21), (a, 15), (b, 9), (t, 7)])
  | .vimul _ d a b t => (0x23, [(d, 21), (a, 15), (b, 9), (t, 7)])
  | .vimax _ d a b t => (0x25, [(d, 21), (a, 15), (b, 9), (t, 7)])
  | .vimin _ d a b t => (0x27, [(d, 21), (a, 15), (b, 9), (t, 7)])
  | .vimaxn _ d a b t => (0x29, [(d, 21), (a, 15), (b, 9), (t, 7)])
  | .viminn _ d a b t => (0x2B, [(d, 21), (a, 15), (b, 9), (t, 7)])
  | .vand _ d a b t => (0x2D, [(d, 21), (a, 15), (b, 9), (t, 7)])
  | .vor _ d a b t => (0x2F, [(d, 21), (a, 15), (b, 9), (t, 7)])
  | .vxor _ d a b t => (0x31, [(d, 21), (a, 15), (b, 9), (t, 7)])
  | .vandn _ d a b t => (0x33, [(d, 21), (a, 15), (b, 9), (t, 7)])
  | .vshl _ d a b t => (0x35, [(d, 21), (a, 15), (b, 9), (t, 7)])
  | .vshr _ d a b t => (0x37, [(d, 21), (a, 15), (b, 9), (t, 7)])
  | .vsha _ d a b t => (0x39, [(d, 21), (a, 15), (b, 9), (t, 7)])
  | .vmov _ d a t => (0x3B, [(d, 21), (a, 15), (t, 7)])
  | .vbcast _ d a k t => (0x3D, [(d, 21), (a, 15), (k, 11), (t, 7)])
  | .viota _ d k t => (0x3F, [(d, 21), (k, 11), (t, 7)])
  | .vshuf _ d a b t => (0x41, [(d, 21), (a, 15), (b, 9), (t, 7)])
  | .vslide _ d a k r t => (0x43, [(d, 21), (a, 15), (k, 11), (r, 9), (t, 7)])
  | .vredadd _ d a t => (0x45, [(d, 21), (a, 15), (t, 7)])
  | .vredmax _ d a t => (0x845, [(d, 21), (a, 15), (t, 7)])
  | .vredmin _ d a t => (0x1045, [(d, 21), (a, 15), (t, 7)])
  | .vrediadd _ d a t => (0x1845, [(d, 21), (a, 15), (t, 7)])
  | .pand _ d a b => (0x47, [(d, 23), (a, 19), (b, 15)])
  | .por _ d a b => (0x2047, [(d, 23), (a, 19), (b, 15)])
  | .pxor _ d a b => (0x4047, [(d, 23), (a, 19), (b, 15)])
  | .pandn _ d a b => (0x6047, [(d, 23), (a, 19), (b, 15)])
  | .pset d f l => (0xF0000049, [(d, 23), (f, 15), (l, 7)])
  | .vany _ a t => (0x4B, [(a, 19), (t, 7)])
  | .vall _ a t => (0x4D, [(a, 19), (t, 7)])
  | .vld _ d k c o p => (0x4F, [(d, 21), (k, 17), (c, 14), (o, 8), (p, 7)])
  | .vst _ d k c o p => (0x51, [(d, 21), (k, 17), (c, 14), (o, 8), (p, 7)])
  | .vldx _ d k b c e => (0x53, [(d, 21), (k, 17), (b, 11), (c, 8), (e, 7)])
  | .vstx _ d k b c e => (0x55, [(d, 21), (k, 17), (b, 11), (c, 8), (e, 7)])
  | .aadd k i => (0xF0000057, [(k, 23), (i, 7)])
  | .ali k i => (0xF0000059, [(k, 23), (i, 7)])
  | .apail a h s k => (0xF000005B, [(a, 23), (h, 21), (s, 20), (k, 7)])
  | .pailw h c => (0xF000005D, [(h, 25), (c, 16)])
  | .pailf h c => (0xF000005F, [(h, 25), (c, 16)])
  | .paila h c s => (0xF0000061, [(h, 25), (c, 16), (s, 15)])
  | .dwait c l => (0xF0000063, [(c, 24), (l, 18)])
  | .vsig e c => (0xF0000065, [(e, 24), (c, 8)])
  | .vwait e c w => (0xF0000067, [(e, 24), (c, 8), (w, 7)])
  | .vwin t h => (0xF0000069, [(t, 23), (h, 22)])
  | .vcfg s i => (0xF000006B, [(s, 24), (i, 8)])
  | .mcel _ s k => (0x3, [(s, 24), (k, 20)])
  | .mldw _ s => (0x5, [(s, 24)])
  | .mpln _ p => (0x7, [(p, 25)])
  | .mma _ t k r b m => (0x9, [(t, 23), (k, 19), (r, 12), (b, 8), (m, 7)])
  | .mmab _ t k r b => (0xB, [(t, 23), (k, 19), (r, 12), (b, 8)])
  | .mret _ t => (0xD, [(t, 23)])
  | .mzro _ t => (0xF, [(t, 23)])
  | .mcat _ r k => (0x11, [(r, 23), (k, 19)])
  | .mwait _ k i c => (0x13, [(k, 25), (i, 22), (c, 7)])
  | .madv _ h s c => (0x15, [(h, 25), (s, 24), (c, 15)])
  | .msig _ e c => (0x17, [(e, 24), (c, 8)])
  | .cmov _ d a l p q e => (0x3, [(d, 23), (a, 19), (l, 15), (p, 14), (q, 13), (e, 11)])
  | .cfil _ d l v p e => (0x5, [(d, 23), (l, 19), (v, 15), (p, 14), (e, 11)])
  | .cpush _ e k => (0x7, [(e, 22), (k, 18)])
  | .cpop _ e k => (0x9, [(e, 22), (k, 18)])
  | .cfol _ => (0xB, [])
  | .csig _ e c => (0xD, [(e, 24), (c, 8)])
  | .cwait _ k i c => (0xF, [(k, 25), (i, 22), (c, 7)])
  | .cadv _ h s c => (0x11, [(h, 25), (s, 24), (c, 15)])
  | .xsnd _ d a l s => (0x3, [(d, 23), (a, 19), (l, 15), (s, 14)])
  | .xred _ d h t => (0x5, [(d, 23), (h, 21), (t, 19)])
  | .xcad _ d v o z => (0x7, [(d, 23), (v, 19), (o, 15), (z, 14)])
  | .xbcs _ p d a l => (0x9, [(p, 21), (d, 17), (a, 13), (l, 9)])
  | .xgat _ d a l => (0xB, [(d, 23), (a, 19), (l, 15)])
  | .xsig _ e c => (0xD, [(e, 24), (c, 8)])
  | .xwait _ k i c => (0xF, [(k, 25), (i, 22), (c, 7)])
  | .xadv _ h s c => (0x11, [(h, 25), (s, 24), (c, 15)])
  | _ => (0, [])

/-- Places each operand at the low bit of its field. -/
def placeFields : List (Nat × Nat) → Nat
  | [] => 0
  | (v, lo) :: t => v * 2 ^ lo + placeFields t

/-- Whether an instruction word has a free guard field: every 32-bit word but BLK (05 R103) and the words whose guard bits are fixed at
always (05 R101). -/
def Instr.guarded : Instr → Bool
  | .blk _ _ => false
  | i => i.format.1 % 2 == 1 && i.format.1 < 2 ^ 27

/-- The word of an instruction; 0 for a row that has no instruction word. -/
def encodeWord (i : Instr) : Nat :=
  (if i.guarded then i.guard.bits else 0) + i.format.1 + placeFields i.format.2

/-- The words of a packet (14 R298-R304); none for an instruction that is no packet. A QNOP's words after the header are not read. -/
def encodePacket : Instr → List Nat
  | .qlaunch af w c ds dp bl b bs ar =>
    [0x000A0001 + af * 2 ^ 8, w * 2 ^ 24 + c * 2 ^ 16 + ds, dp, bl, b % 2 ^ 32, b / 2 ^ 32, bs, 0, ar % 2 ^ 32, ar / 2 ^ 32]
  | .qcall a l => [0x00030002, a, l]
  | .qret => [0x00010003]
  | .qpred c a v k => [0x00040004 + c * 2 ^ 8, a, v, k]
  | .qloop n => [0x00020005, n]
  | .qlend => [0x00010006]
  | .qwrite a v => [0x00030007, a, v]
  | .qsignal af h n => [0x00030008 + af * 2 ^ 8, h, n]
  | .qwait dc h n q => [0x00040009 + dc * 2 ^ 8, h, n, q]
  | .qfence => [0x0001000A]
  | .qjump a l => [0x0003000B, a, l]
  | .qnop l => [l * 2 ^ 16 + 0x000C]
  | _ => []

/-- The length of an instruction word in bits; 0 for a row that has none. -/
def wordBits : Instr → Nat
  | .mov16 .. | .add16 .. | .sub16 .. | .and16 .. | .or16 .. | .xor16 .. | .addi16 .. | .li16 .. | .shli16 .. | .shri16 .. | .xfer16 ..
  | .kpop16 .. | .nop16 => 16
  | i => if i.format.1 % 2 == 1 then 32 else 0

/-- The instruction words of an instruction as little-endian halfwords, the first at the lowest index (05 R99). -/
def encode (i : Instr) : List Nat :=
  match wordBits i with
  | 16 => [encodeWord i]
  | 32 => [encodeWord i % 2 ^ 16, encodeWord i / 2 ^ 16]
  | _ => []

/-- Some instruction of one of the streams, the SCU's first (log entry 10: a table word names no stream). -/
def firstOk : List (Except Reject Instr) → Option Instr
  | [] => none
  | .ok i :: _ => some i
  | .error _ :: t => firstOk t

/-- The instruction the decoder reads from a table word of `nbits` bits: the 16-bit map for 16 bits, else the first of the five
32-bit maps and the packet map that takes the word; bits above `nbits` are 0. -/
def decodeTableWord (nbits w : Nat) : Option Instr :=
  if nbits ≤ 16 then firstOk [decode16 (w % 2 ^ 16)]
  else
    firstOk [decode32 .scu (w % 2 ^ 32), decode32 .ve (w % 2 ^ 32), decode32 .me (w % 2 ^ 32), decode32 .ce (w % 2 ^ 32),
      decode32 .xe (w % 2 ^ 32), decodePacket (rangeFrom 0 10 |>.map (fun k => fld w (32 * k) 32))]

/-- The 32-bit maps an instruction's word stands in (05 R99, R103-R104); none for a 16-bit word, a packet or an event. -/
def Instr.streams : Instr → List Stream
  | .add .. | .sub .. | .and .. | .or .. | .xor .. | .andn .. | .shl .. | .shr .. | .sha .. | .rot .. | .min .. | .max .. | .minn .. | .maxn ..
  | .clz .. | .ctz .. | .popc .. | .mul .. | .mulh .. | .mulhn .. | .div .. | .divn .. | .rem .. | .remn .. | .addi .. | .andi .. | .ori .. | .xori ..
  | .shli .. | .shri .. | .shai .. | .roti .. | .li .. | .lis .. | .cmp .. | .cmpn .. | .cmpi .. | .cmpin .. | .kand .. | .kor .. | .kxor .. | .kandn ..
  | .pbt .. | .pbtr .. | .xfer .. | .xferl .. | .ld .. | .ldn .. | .st .. | .sld .. | .sldn .. | .sst .. | .amo .. | .amor .. | .samo .. | .samor ..
  | .cas .. | .fenceWw .. | .fenceFull .. | .fenceAllCore .. | .fenceAllDie .. | .fenceAllDomain .. | .bind .. | .unbind .. | .semadd .. | .semwait ..
  | .semwdec .. | .semget .. | .semarm .. | .cmd .. | .cmdr .. | .cpyt .. | .kpop .. | .mfs .. | .mts .. | .swpt .. | .clkdiv .. | .park .. | .yield ..
  | .trap .. | .brk .. | .tren .. | .tret .. | .tsnap .. | .wake .. => [.scu]
  | .vadd .. | .vsub .. | .vmul .. | .vfma .. | .vfms .. | .vmax .. | .vmin .. | .vabs .. | .vneg .. | .vclass .. | .vrcp .. | .vrsq .. | .vexp2 ..
  | .vlog2 .. | .vtanh .. | .vcvt .. | .vrq .. | .vpack .. | .vunpk .. | .vcmpf .. | .vcmpi .. | .viadd .. | .visub .. | .vimul .. | .vimax ..
  | .vimin .. | .vimaxn .. | .viminn .. | .vand .. | .vor .. | .vxor .. | .vandn .. | .vshl .. | .vshr .. | .vsha .. | .vmov .. | .vbcast .. | .viota ..
  | .vshuf .. | .vslide .. | .vredadd .. | .vredmax .. | .vredmin .. | .vrediadd .. | .pand .. | .por .. | .pxor .. | .pandn .. | .pset .. | .vany ..
  | .vall .. | .vld .. | .vst .. | .vldx .. | .vstx .. | .aadd .. | .ali .. | .apail .. | .pailw .. | .pailf .. | .paila .. | .dwait .. | .vsig ..
  | .vwait .. | .vwin .. | .vcfg .. => [.ve]
  | .mcel .. | .mldw .. | .mpln .. | .mma .. | .mmab .. | .mret .. | .mzro .. | .mcat .. | .mwait .. | .madv .. | .msig .. => [.me]
  | .cmov .. | .cfil .. | .cpush .. | .cpop .. | .cfol .. | .csig .. | .cwait .. | .cadv .. => [.ce]
  | .xsnd .. | .xred .. | .xcad .. | .xbcs .. | .xgat .. | .xsig .. | .xwait .. | .xadv .. => [.xe]
  | .blk .. | .mark .. => [.ve, .me, .ce, .xe]
  | .nop .. => [.scu, .ve, .me, .ce, .xe]
  | _ => []

end Sys2Proof
end

