-- ==== Sys2Proof/Machine/State.lean ====
section
/-! DEFINITION. The state of a whole package as plain data: its storage, the SCU contexts, the engine streams, the VE and ME state of
each slot, the cores, the dies with their Registrars, admissions, the Curator, power, and the model's own scheduling fields. Every table
lists only what differs from its default, and State.reset is the machine after cold reset, before bring-up (log entries 1 to 6). -/

namespace Sys2Proof.Machine

/-- Why a step stops. No meaning of an instruction raises it. -/
inductive Fault where
  /-- The turn names a unit the package does not have (raised by step; safe: 01 R10-R13 give no such unit). -/
  | noSuchUnit
deriving DecidableEq, Repr

/-- Why a step has no meaning. -/
inductive Refusal where
  /-- An instruction the model does not give a meaning yet (raised by exec; safe). -/
  | notModelled (mnemonic : String)
  /-- The agenda names an instruction word as if it were an event (raised by step; safe: only agents run words). -/
  | notAnEvent
deriving DecidableEq, Repr

/-! ### SCU contexts -/

/-- A transfer that waits for its delay slots (06 R143-R144): target, taken or not, and slots left. -/
structure Xfer where
  tgt : Nat
  taken : Bool
  left : Nat
deriving DecidableEq, Repr

/-- A pending CPYT (06 R156-R157). `fault` is the cause, the failing address and the byte count to report at the token. -/
structure Copy where
  reg : Nat
  n : Nat
  dst : Nat
  src : Nat
  dstS : Bool
  srcS : Bool
  fault : Option (Nat × Word × Nat)
deriving DecidableEq, Repr

/-- A window load, atomic or CAS of an SCU context that waits for its reply (03 R60, 15 R340): the request's tag, and the answer once
it has come (`none` inside: refused or timed out); `rmw` says that it is an atomic or a CAS. -/
structure Remote where
  station : Nat
  tag : Nat
  gen : Nat
  win : Nat
  off : Nat
  answer : Option (Option (List Byte))
  rmw : Bool := false
deriving DecidableEq, Repr

/-- An SCU access parked on a translation (15 R327-R328): none, one that waits for its verdict, or one told to walk again. -/
inductive Parked where
  | no
  | waiting
  | again
deriving DecidableEq, Repr

/-- A trap that waits for the boundary of a context it is to stop or to enter (13 R282): the context whose trap it is, source, cause, value. -/
structure PendTrap where
  of : CtxId
  src : Nat
  cause : Nat
  val : Word
deriving DecidableEq, Repr

/-- An SCU context (06 R129, 13 R278-R279). `pend` is the trap that waits until an access of the context that has issued has ended. `votes` is oldest first; `voted` counts the votes entered since the VE's last mark and
`revote` the votes a replay still discards (08 R198); `reports` are the refused posted writes owed (03 R61); `fenced` and `fencedW` are the
posted writes that later accesses and later strong writes wait for (04 R83), `epoch` the FENCE.WW executed; `unread` the tokens of copies that have ended and that no instruction has
read (04 R93); `cmdTarget` is the slot whose full queue a CMDR waits for, and whether its task has ended since (06 R155). -/
structure Ctx where
  g : Vector Word 32 := Vector.replicate 32 0
  k : Vector Bool 16 := Vector.replicate 16 false
  b : Vector Nat 4 := Vector.replicate 4 0
  pc : Nat := 0
  xfer : Option Xfer := none
  votes : List Bool := []
  voted : Nat := 0
  revote : Nat := 0
  copies : List Copy := []
  variant : Nat := 0
  tpc : Word := 0
  tcause : Nat := 0
  tval : Word := 0
  trep : Nat := 0
  tvec : Nat := 0
  slotn : Nat := 0
  src : Nat := 0
  depth : Nat := 0
  wopen : Bool := true
  sched : Word := 0
  lvx : Vector Nat 8 := Vector.replicate 8 0
  lve : Vector Nat 8 := Vector.replicate 8 0
  park : Bool := false
  yielded : Bool := false
  blocked : Bool := false
  wd : Nat := 0
  remote : Option Remote := none
  parked : Parked := .no
  pend : Option PendTrap := none
  reports : List Word := []
  fenced : List Nat := []
  fencedW : List Nat := []
  epoch : Nat := 0
  unread : List Nat := []
  cmdTarget : Option (CtxId × Bool) := none
deriving DecidableEq, Repr

/-- What a region is bound to (04 R86). -/
inductive BindObj where
  | sem (handle : Nat)
  | flag (addr : Nat)
deriving DecidableEq, Repr

/-- A binding table entry (04 R86): space 0 is VA, 1 local S-space, 2 + w loan window w. -/
structure Binding where
  space : Nat
  base : Nat
  len : Nat
  obj : BindObj
  declared : Bool
deriving DecidableEq, Repr

/-- A kernel image in I-space (14 R312, R320). -/
structure Image where
  asid : Nat
  imgva : Nat
  ilen : Nat
  ibase : Nat
deriving DecidableEq, Repr

/-- A task on a slot: its identity, what it was given, and its fault and pre-emption state (01 R13, R20; 13 R281; 16 R353-R362).
`set` is the set of the replay area that holds its replay counts (16 R361), `p` the positions of the SCU, VE, ME, CE and XE agents. -/
structure Task where
  launch : Nat
  node : Nat
  point : List Nat
  entry : Nat
  arg : Word
  cls : Nat
  asid : Nat
  part : Nat
  depth : Nat
  tiles : Nat
  image : Image
  skim : Option Nat
  slotLevels : List (Nat × Nat)
  bindings : List Binding
  allot : List (Nat × Nat × Nat)
  started : Bool
  loadFail : Option (Nat × Word)
  frozen : Bool
  inHandler : Bool
  frozenSrc : Nat
  frozenCause : Nat
  frozenAt : Nat
  later : List Nat
  laterCount : Nat
  abandoned : Bool
  preempting : Bool
  preempted : Bool
  parked : Bool
  unreplayable : Bool
  set : Nat
  p : Vector Nat 5
deriving DecidableEq, Repr

/-! ### Engine streams -/

/-- A command record (05 R107): bounds as counts, strides signed, the progress area `acc` and `mi` (03 R69). -/
structure Rec where
  iaddr : Nat
  bcnt : Nat
  mlvl : Nat
  clvl : Nat
  fov : Bool
  bbv : Bool
  engine : Nat
  cbase : Nat
  bound : List Nat
  a : List Word
  stride : List Int
  h : List Nat
  e : List Nat
  bbar : Nat
  follow : Nat
  k : List Nat
  va : Nat
  acc : Nat
  mi : List Nat
deriving DecidableEq, Repr

/-- An operation staged in the vault under an engine's identity (03 R70, 10 R244); `first` is the first of the pail's slots it publishes or releases. `live` is false for a suppressed one (16 R361). -/
inductive Staged where
  | add (handle : Nat) (n : Int) (live : Bool)
  | dec (handle : Nat) (n : Int) (live : Bool)
  | wait (live : Bool)
  | publish (handle n first : Nat) (live : Bool)
  | release (handle n first : Nat) (live : Bool)
  | push (launch idx slot : Nat)
  | pop (launch idx slot : Nat)
deriving DecidableEq, Repr

/-- What an engine stream or a context waits for (16 R354's STATE and WIDX). -/
inductive Wait where
  | none
  | vault (widx : Nat)
  | pail (widx : Nat)
  | stream (ep : Nat)
  | parked
  | interlock
  | counter (widx : Nat)
  | queueFull
deriving DecidableEq, Repr

/-- The kinds of CE and XE transfers (10 R240-R248). -/
inductive TKind where
  | cmov | cfil | cpush | cpop | xsnd | xgat | xbcs
deriving DecidableEq, Repr

/-- A posted write still to be sent (03 R60): its window (or 16 + group), offset, target and key slot as captured at issue (03 R73), and
its bytes, an absent byte staying unwritten. `part` is what a window read is known by: the first row byte of a VE load that it brings, or its
offset from the first window. -/
structure Piece where
  win : Nat
  off : Nat
  tpkg : Nat
  tdie : Nat
  addr : Nat
  key : Nat
  data : List (Option Byte)
  part : Nat
deriving DecidableEq, Repr

/-- Where a transfer's window or group bytes lie at a target, as its descriptor gave them at issue (03 R73): package, die, address of the
first byte, key slot. -/
structure Target where
  tpkg : Nat
  tdie : Nat
  addr : Nat
  key : Nat
deriving DecidableEq, Repr

/-- A CE or XE transfer in flight (10 R237-R239). `slot` is the launch, stream and slot index of a push or pop; `pieces` are posted
pieces or window reads still to issue, `begun` once the source of the posted ones is read; `want` are window reads awaited, `got` their
replies. -/
structure Transfer where
  id : Nat
  kind : TKind
  dst : Nat
  src : Nat
  dstS : Bool
  srcS : Bool
  n : Nat
  val : Word
  es : Nat
  win : Nat
  slot : Nat × Nat × Nat
  targets : List Target
  pieces : List Piece
  want : List (Nat × Nat)
  begun : Bool
  parked : Bool
  got : List (Nat × List Byte)
  fault : Option (Nat × Word)
  epc : Nat
deriving DecidableEq, Repr

/-- A recorded XCAD (10 R247): window, offset and target, size in bytes, addend, old-value address, and its request and answer once
issued. -/
structure Xcad where
  win : Nat
  off : Nat
  target : Target
  size : Nat
  addend : Word
  old : Nat
  req : Option (Nat × Nat × Nat)
  answer : Option (Option Word)
deriving DecidableEq, Repr

/-- The command stream of one slot on one engine (01 R13, 05 R103-R109, 16 R354). `epc` is the next instruction's index, `inBody`
whether it stands in a block body, `atEnd` whether the pass has ended and a mark is due; `issues` counts what it has issued (the
model's own). -/
structure Stream where
  queue : List Rec := []
  appended : Nat := 0
  retired : Nat := 0
  active : Bool := false
  idx : List Nat := List.replicate 6 0
  a : Vector Word 16 := Vector.replicate 16 0
  epc : Nat := 0
  inBody : Bool := false
  blocks : Nat := 0
  bodyStart : Nat := 0
  bodyLen : Nat := 0
  repsLeft : Nat := 0
  atEnd : Bool := false
  markAsked : Bool := false
  markDue : Bool := false
  prevRow : Option Nat := none
  binds : List Binding := []
  staged : List Staged := []
  counted : Nat := 0
  countedMark : Nat := 0
  armed : Bool := false
  armedMark : Bool := false
  issues : Nat := 0
  transfers : List Transfer := []
  xcads : List Xcad := []
  issuing : Bool := false
  reports : List Word := []
  wait : Wait := .none
  faulting : Bool := false
  atMark : Bool := false
  pMark : Nat := 0
deriving DecidableEq, Repr

/-! ### The vector engine of a slot -/

/-- The VE configuration (08 R203); flags and enables in the order IV, DZ, OF, UF, SA from bit 0. -/
structure VeCfg where
  seed : Nat := 0
  flags : Nat := 0
  en : Nat := 0
  ftz : Bool := false
  mode : Nat := 0
deriving DecidableEq, Repr

/-- A VE memory access in flight (08 R188-R193): `bytes` are the row byte, its 64-bit address, and for a store the byte to write; `pieces`
are posted window writes or window reads not yet sent; `want` are the window reads awaited and `got` their replies, by the first row byte they
bring; `wide` says that it moves a whole row; `seen` are the bytes of a
load that an instruction has read before it landed (08 R190); `failed` is the cause and value to raise when the access completes. -/
structure VeAccess where
  id : Nat
  ctr : Nat
  load : Bool
  tile : Nat
  row : Nat
  epc : Nat
  bytes : List (Nat × Word × Byte)
  pieces : List Piece
  want : List (Nat × Nat)
  got : List (Nat × List Byte)
  seen : List (Nat × Byte)
  parked : Bool
  failed : Option (Nat × Word)
  done : Bool
  wide : Bool
deriving DecidableEq, Repr

/-- What a VE mark saves outside the VE's reset domain (08 R205). -/
structure VeShadow where
  p : Vector (BitVec 256) 15 := Vector.replicate 15 0
  tile : Nat := 0
  half : Nat := 0
  cfg : VeCfg := {}
deriving DecidableEq, Repr

/-- The VE state of a slot (01 R12, 08 R186-R205): predicates p0-p14, window, configuration, the seed and accession of the last reseed with the generator words stepped since (02 R40), pending accesses. -/
structure Ve where
  p : Vector (BitVec 256) 15 := Vector.replicate 15 0
  tile : Nat := 0
  half : Nat := 0
  cfg : VeCfg := {}
  srSeed : Nat := 0
  srAcc : Nat := 0
  sr : Table Nat (BitVec 32) := []
  pend : List VeAccess := []
  shadow : VeShadow := {}
deriving DecidableEq, Repr

/-! ### The matrix engine -/

/-- What a logical or physical plane holds: tag, B format and width (09 R212). -/
structure Plane where
  tag : Nat
  bfmt : Nat
  kw : Bool
deriving DecidableEq, Repr

/-- A logical plane binding; `stale` once its tag has been invalidated (09 R210). -/
structure Bound where
  plane : Plane
  stale : Bool
deriving DecidableEq, Repr

/-- A cellar name's tag; `stale` once the tag has been invalidated (09 R210). -/
structure NameRef where
  name : Nat
  tag : Nat
  stale : Bool
deriving DecidableEq, Repr

/-- A physical plane: its triple, the image expanded into it, and whether the expansion is complete (09 R212). -/
structure Phys where
  plane : Plane
  image : List Byte
  done : Bool
deriving DecidableEq, Repr

/-- What an ME mark saves (09 R221). -/
structure MeShadow where
  cat : List (Nat × BitVec 128) := []
  names : List NameRef := []
  plane0 : Option Bound := none
  plane1 : Option Bound := none
  active : Nat := 0
deriving DecidableEq, Repr

/-- The ME state of a slot (09 R208): catalogue rows written, cellar names bound, planes, owned tiles with the catalogue row and type
they captured, depth count. -/
structure MeSlot where
  cat : List (Nat × BitVec 128) := []
  names : List NameRef := []
  plane0 : Option Bound := none
  plane1 : Option Bound := none
  active : Nat := 0
  owned : List (Nat × Option (Nat × Bool)) := []
  depth : Nat := 0
  shadow : MeShadow := {}
deriving DecidableEq, Repr

/-- An issued ME pass (09 R222-R229): A base and strides, rows, destination, captured catalogue row and plane. `stack` groups the members
of one open or ready stack; `ready` and `readyAt`, in ME cycles, follow R227; `image` is the plane's image once the pass has taken the
array, and `running` says until the first of its members completes that an error in the plane still fails it (R230). -/
structure Pass where
  id : Nat
  slot : Nat
  tile : Nat
  abase : Nat
  strides : Int × Int
  rows : Nat
  base : Nat
  row : BitVec 128
  plane : Plane
  block : Bool
  member : Bool
  part : Nat
  cls : Nat
  deadline : Nat
  stack : Nat
  ready : Bool
  readyAt : Nat
  running : Bool
  image : List Byte
  withdrawn : Bool
  failed : Bool
  epc : Nat
deriving DecidableEq, Repr

/-- A cellar entry (09 R210): tag, ASID and VA it was fetched under (no VA when it is fetched again from its tag, R231), header word,
the image bytes once fetched, its last use, and the slot whose instruction asked for the fetch. -/
structure CellarEntry where
  tag : Nat
  asid : Nat
  va : Option Nat
  header : Nat
  lines : Nat
  image : Option (List Byte)
  failed : Bool
  parked : Bool
  used : Nat
  slot : Nat
deriving DecidableEq, Repr

/-! ### Cores -/

/-- A current bucket (17 R378): balance in sixteenths of a unit. -/
structure Bucket where
  bal : Int := 0
  rate : Nat := 0
  cap : Nat := 0
deriving DecidableEq, Repr

/-- A die or micro TLB leaf (15 R326). -/
structure TlbLeaf where
  asid : Nat
  va : Nat
  level : Nat
  leaf : Word
deriving DecidableEq, Repr

/-- A posted write not yet acknowledged (03 R60): `win` is the window, or 16 + group; `agent` its issuer; `tpkg`, `tdie`, `addr` and `len`
the bytes it writes; `strong` whether it is a strong write (04 R75); `drop` once its report is dropped, `access` the VE access or transfer it
is part of, `note` the 32 bytes of a work-queue notify to the package's own admissions (15 R335). -/
structure Posted where
  id : Nat
  agent : AgentId
  win : Nat
  off : Nat
  tpkg : Nat
  tdie : Nat
  addr : Nat
  len : Nat
  strong : Bool
  station : Nat
  tag : Nat
  gen : Nat
  launch : Nat
  drop : Bool
  access : Option Nat
  note : List Byte := []
deriving DecidableEq, Repr

/-- The shared state of a core; `images` says of each kernel image whether it is loaded, `bucketNew` the bucket writes that act at the next reference cycle (17
R378), `bucketHeld` which slot of an engine its bucket holds (17 R380), `unitBase` the cycles of the SCU and of each engine up to a reference cycle and that cycle (17 R377), `nextIssue` the first
reference cycle in which a unit may issue again, `served` the slot that each unit issued from last for each class, in fours by unit (01 R27), `docLast` the SCU cycle of the docent's last share (13
R273), `passHeld` the pass the ME's bucket holds, `cycleAdj`, `idSet` and `slotSet` what the supervisor has written over the core's CYCLE (as a difference), its COREID and the SLOT of its contexts (13 R272), `arrayLeft` the row cycles that the pass on its array still takes (09 R228), `slow` the slots whose VE runs at the ladder's divisor (17 R376), `sawStep` the last step whose new level the core has read (17 R373),
`levelSet` a value that the supervisor has written over PWRLVL and the steps by then (13 R272), `pendReset` the alarms whose engine reset is due as engine, kind and whether DUTY bit 0 was set at it (13 R290), `alarms` the latest parity and protocol alarms (01 R12, 05 R121, 09 R208, 13 R280, 16 R346-R363, 17 R376-R385). -/
structure Core where
  images : List (Image × Bool) := []
  clkdiv : Vector Nat 5 := #v[2, 1, 1, 1, 1]
  clkeff : Vector Nat 5 := #v[2, 1, 1, 1, 1]
  lwallow : Vector Nat 16 := Vector.replicate 16 1024
  posted : List Posted := []
  tdlg : Word := 0x2FFFA00000000
  dshare : Nat := 0
  mbhold : Vector Nat 4 := #v[0, 0, 0, 0]
  wdt : Vector Nat 5 := Vector.replicate 5 0x04000000
  wd : Vector Nat 4 := Vector.replicate 4 0
  wdReset : Vector Bool 4 := Vector.replicate 4 false
  alarms : List (Nat × Nat) := []
  afail : Bool := false
  crst : Option Nat := none
  unitBase : Vector (Nat × Nat) 5 := Vector.replicate 5 (0, 0)
  nextIssue : Vector Nat 5 := Vector.replicate 5 0
  served : Vector Nat 20 := Vector.replicate 20 3
  docLast : Nat := 0
  passHeld : Option Nat := none
  arrayLeft : Nat := 0
  slow : Vector Bool 4 := Vector.replicate 4 false
  buckets : Vector Bucket 5 := Vector.replicate 5 {}
  bucketNew : List (Nat × Word) := []
  bucketHeld : List (Nat × Nat) := []
  utlb : List (Nat × TlbLeaf) := []
  rolling : Vector Bool 4 := Vector.replicate 4 false
  rollAt : Vector Nat 4 := Vector.replicate 4 0
  pendReset : List (Nat × Nat × Bool) := []
  withdrawn : Nat := 0
  cellar : List CellarEntry := []
  phys0 : Option Phys := none
  phys1 : Option Phys := none
  passes : List Pass := []
  tileMap : List (Nat × Nat × Nat) := []
  exchanges : List (Nat × Nat) := []
  cycleAdj : Word := 0
  idSet : Option Nat := none
  slotSet : Table Nat Nat := []
  hotter : Nat := 0
  sawStep : Nat := 0
  levelSet : Option (Nat × Nat) := none
  pendingStep : List Nat := []
  docBusy : Bool := false
  docHeld : List (Nat × Nat × Word × Nat) := []
  tables : Option ConsTables := none
  newTables : Option (ConsTables × BitVec 384 × List Nat) := none
deriving DecidableEq, Repr

/-! ### Dies, streams and Registrars -/

/-- An ingress control block (03 R62); `state` is 0 RUN, 1 ERROR, 2 STOPPED; `owner` the launch it is assigned to (10 R252). -/
structure Icb where
  base : Nat := 0
  slots : Nat := 0
  slsz : Nat := 0
  head : BitVec 32 := 0
  tail : BitVec 32 := 0
  refused : Nat := 0
  reason : Nat := 0
  state : Nat := 2
  owner : Option Nat := none
deriving DecidableEq, Repr

/-- A slot a stream endpoint has taken (10 R244): its mark is still to come; it has come, while an earlier slot's has not; or the claim of a
task's was undone, and the slot waits for that task to take it again, whatever slot and core it then runs on. Of a task that has ended since, an
undone pop is open to any other, and an undone claim leaves its slot void (log entry 71). -/
inductive SlotSt where
  | taken (node : Nat) (point : List Nat)
  | done
  | back (node : Nat) (point : List Nat)
  | loose
  | void
deriving DecidableEq, Repr

/-- A stream of a launch (10 R243, 14 R315). `claims` and `pops` are the slots taken by each side, from the earliest one whose mark is still
to come, in the order of their indices (10 R244); `voids` are void slots among the filled ones. -/
structure StreamSt where
  launch : Nat
  idx : Nat
  src : Nat
  dst : Nat
  out : Nat
  inp : Nat
  slog : Nat
  count : Nat
  free : Nat
  filled : Nat
  prod : Nat
  cons : Nat
  claims : List (Nat × SlotSt)
  pops : List (Nat × SlotSt)
  voids : List Nat
deriving DecidableEq, Repr

/-- Who waits behind a parked translation (15 R328's AGENT). -/
inductive ParkOwner where
  | scu (at_ : CtxId)
  | copy (at_ : CtxId) (reg : Nat)
  | engine (ag : AgentId) (id : Nat)
  | cellar (core : CoreId) (tag slot : Nat)
  | registrar
  | image (at_ : CtxId)
deriving DecidableEq, Repr

/-- A parked access of a die (15 R327-R328): `index` is its ring entry once posted. -/
structure ParkEntry where
  va : Nat
  asid : Nat
  kind : Nat
  wr : Bool
  owner : ParkOwner
  index : Option Nat
deriving DecidableEq, Repr

/-- The status of an instance on its die (14 R318-R320, 16 R361-R362). -/
inductive InstStatus where
  | waiting | ready | placed (core slot : Nat) | ended | failed
deriving DecidableEq, Repr

/-- A node instance of a die (14 R317-R319) with its candidate cores, bypass count and the set of the replay area it holds (16 R361). -/
structure Inst where
  launch : Nat
  node : Nat
  point : List Nat
  cand : List Nat
  cls : Nat
  bypass : Nat
  unreplayable : Bool
  set : Option Nat
  status : InstStatus
deriving DecidableEq, Repr

/-- An answer of a Registrar to an offer (14 R308). -/
inductive Answer where
  | none | held | accept | busy | refuse (code : Nat)
deriving DecidableEq, Repr

/-- A stage die (01 R10, 03 R62, 14 R308-R320, 15 R323-R329, 16 R364, 17 R384); `preds` gives the vault word that holds the predecessor count
of a launch's node (14 R309). -/
structure Die where
  icbs : List (Nat × Icb) := []
  nonces : List (Nat × Word) := []
  tlb : List TlbLeaf := []
  parked : List ParkEntry := []
  ringSeq : Nat := 0
  inval : Option (Nat × Nat × Nat × Nat × Nat) := none
  invalDone : Bool := false
  ringFree : List Nat := []
  late : Nat := 0
  unauth : Nat := 0
  insts : List Inst := []
  preds : List (Nat × Nat × Nat) := []
  resetAt : Option Nat := none
  depth : Nat := 0
  tripped : Bool := false
  repairRow : Nat := 0
  repairBusy : Bool := false
  repairFail : Bool := false
  overTemp : Nat := 0
deriving DecidableEq, Repr

/-! ### Launch bodies and admissions -/

/-- A level of a node (01 R15, 14 R312). -/
structure Level where
  extent : Nat
  domain : Nat
  scope : Nat
  cyclic : Bool
deriving DecidableEq, Repr

/-- A node operand (14 R314). -/
structure Operand where
  base : Nat
  size : Nat
  obj : Nat
  out : Bool
  space : Nat
  semidx : Nat
  flag : Nat
deriving DecidableEq, Repr

/-- A node of a launch body (14 R312). -/
structure Node where
  levels : List Level
  tiles : Nat
  entry : Nat
  nop : Nat
  opbase : Nat
  imgva : Nat
  ilen : Nat
  ibase : Nat
  skim : Option Nat
deriving DecidableEq, Repr

/-- A parsed launch body (14 R311-R315). Semaphores are package flag, mode, initial count and expectation. -/
structure Body where
  nodes : List Node
  edges : List (Nat × Nat)
  ops : List Operand
  sems : List (Bool × Nat × Nat × Nat)
  pails : List Word
  streams : List (Nat × Nat × Nat × Nat × Nat × Nat)
  relocs : List (Nat × Nat × Nat)
deriving DecidableEq, Repr

/-- The operands of a QLAUNCH as dispatched (14 R298). -/
structure QLaunch where
  queue : Nat
  weight : Nat
  cls : Nat
  dies : Nat
  depth : Nat
  bodyLen : Nat
  body : Nat
  bodySum : Nat
  arg : Nat
  epos : Nat
  ringPos : Nat
deriving DecidableEq, Repr

/-- An active launch (14 R308-R310): `pending` are the dies still to act on GO, `done` those that have reported it complete. -/
structure Launch where
  seq : Nat
  q : QLaunch
  asid : Nat
  part : Nat
  dies : List Nat
  cores : List Nat
  body : Body
  base : Nat
  words : Nat
  pbase : Nat
  pwords : Nat
  pending : List Nat
  done : List Nat
  failed : Bool
  assisted : Bool
deriving DecidableEq, Repr

/-- An offer between admissions and the Registrars (14 R308). -/
structure OfferSt where
  q : QLaunch
  asid : Nat
  part : Nat
  live : List Nat
  cores : List Nat
  answers : List (Nat × Answer)
  body : Option Body
deriving DecidableEq, Repr

/-- A ring position or a buffer position: depth-0 words are counted by HEAD, buffer words by their byte address. -/
structure ExecPoint where
  inRing : Bool
  addr : Nat
  stop : Nat
deriving DecidableEq, Repr

/-- What keeps a queue from being runnable (14 R305). -/
inductive QWaitSt where
  | no
  | sem (handle n : Nat) (dec : Bool) (signaller : Nat)
  | after
  | offer
  | busy (dies : List Nat)
deriving DecidableEq, Repr

/-- A work queue (14 R291-R307): its descriptor fields, then its execution state. `copied` is the packet it executes as it was copied, kept
while the packet waits, and `window` those copied after it (14 R296). `pendingDone` lists, in ring order, the executed ring packets that DONE
has still to pass, as the count past them, their launches outstanding and whether one has failed. -/
structure Queue where
  part : Nat := 0
  tickets : Nat := 1
  reason : Nat := 0
  quar : Bool := false
  urgent : Bool := false
  state : Nat := 0
  failrun : Nat := 0
  head : BitVec 32 := 0
  tail : BitVec 32 := 0
  fails : Nat := 0
  done : BitVec 32 := 0
  pass : Nat := 0
  nonce : Word := 0
  asid : Nat := 0
  epos : Nat := 0
  lastseq : Nat := 0
  point : ExecPoint := ⟨true, 0, 0⟩
  calls : List ExecPoint := []
  loops : List (List (ExecPoint × Nat)) := [[]]
  copied : Option (ExecPoint × List Nat) := none
  window : List (ExecPoint × List Nat) := []
  skip : Nat := 0
  wait : QWaitSt := .no
  offer : Option OfferSt := none
  pendingDone : List (Nat × List Nat × Bool) := []
  curLaunches : List Nat := []
  offPending : Bool := false
  stopFor : Option Nat := none
  runnable : Bool := false
deriving DecidableEq, Repr

/-! ### The fabric -/

/-- Who a reply belongs to (15 R340). -/
inductive ReqOwner where
  | scu (at_ : CtxId)
  | read (ag : AgentId) (id off : Nat)
  | xcad (ag : AgentId) (idx : Nat)
  | posted (core : CoreId) (id : Nat)
  | combined (id : Nat)
deriving DecidableEq, Repr

/-- The way a request goes: the core that sent it, none for a bridge's, and the package and die it goes to (15 R333). -/
structure Path where
  core : Option CoreId
  tpkg : Nat
  tdie : Nat
deriving DecidableEq, Repr

/-- An outstanding request of a station (15 R340); `denied` says that the fabric finds no route for it, or turns it away at a link (15 R333,
R343). `span` are the target bytes it names; `lost` says that its slot has been lost with a link or discarded (15 R340, R343), `taken` that a later
slot of its core to one of these bytes has been taken, so that it has arrived before (15 R333), `bridged` that it is a member of a combining window of
the package's own bridge station (15 R341). -/
structure Req where
  station : Nat
  tag : Nat
  gen : Nat
  at_ : Nat
  path : Path
  denied : Bool
  owner : ReqOwner
  bounces : Nat
  retryAt : Option Nat
  span : Option (Nat × Nat) := none
  lost : Bool := false
  taken : Bool := false
  bridged : Bool := false
deriving DecidableEq, Repr

/-- What the package has sent out (log entry 6). A slot of the fabric carries the package id and the domain key of the partition that sends
it (15 R331). -/
inductive Out where
  | slot (spkg : Nat) (key : Word) (what : Out)
  | load (tpkg tdie addr len station tag gen : Nat)
  | store (tpkg tdie addr : Nat) (data : List (Option Byte)) (station tag gen : Nat)
  | atomic (tpkg tdie addr size fn : Nat) (v w : Word) (relaxed : Bool) (station tag gen : Nat)
  | notify (tpkg tdie q : Nat) (tail : BitVec 32) (nonce mac : Word) (station tag gen : Nat)
  | workNotify (tpkg : Nat) (msg : List Byte) (station tag gen : Nat)
  | reply (dst : Nat) (ok : Bool) (data : List Byte)
  | splitReply (spkg id : Nat) (old : Word)
  | irqSupervisor | irqMonitor | irqAdmissions (q : Nat) | irqPairC (die i : Nat) | irqPairD
  | offer (die : Nat) | drop (die : Nat) | go (die : Nat)
  | publish (launch level scope : Nat) (point : List Nat)
  | spdm (data : List Byte)
  | poweredOff
deriving DecidableEq, Repr

/-- A combining window at a bridge station (15 R341), of requests under one domain key (15 R331): requests as arrival cycle, clockwise, source id (package × 16 + station), the requester's own number and addend. -/
structure Combining where
  id : Nat
  tpkg : Nat
  tdie : Nat
  addr : Nat
  size : Nat
  key : Word
  openAt : Nat
  reqs : List (Nat × Bool × Nat × Nat × Word)
  sent : Option (Nat × Nat)
deriving DecidableEq, Repr

/-- A link (15 R342-R343): partitions routed over it, epoch, failed, groups under the key in service, and its two key slots, of which
the epoch selects one; `down` says that stage 7 has not accepted its peer (18 R391). -/
structure Link where
  keys : Vector (BitVec 256) 2 := Vector.replicate 2 0
  parts : Nat := 0
  epoch : Bool := false
  failed : Bool := false
  groups : Nat := 0
  rolled : Bool := false
  down : Bool := false
deriving DecidableEq, Repr

/-! ### The Curator, power and service -/

/-- The state of a Curator pair (13 R274-R277). -/
inductive PairSt where
  | active | standby | service | stopped | held
deriving DecidableEq, Repr

/-- The privilege level of a Curator hart (13 R269). -/
inductive HartLevel where
  | u | s | m
deriving DecidableEq, Repr

/-- What a Curator pair appears as, one RV64 hart (13 R274): its program counter, integer and floating-point registers, control and status registers
and privilege level, and what its last load-reserved found, as an address, a size and a value (log entry 96). -/
structure Hart where
  pc : Word := 0
  x : Vector Word 32 := Vector.replicate 32 0
  f : Vector Word 32 := Vector.replicate 32 0
  csr : Table Nat Word := []
  level : HartLevel := .m
  resv : Option (Nat × Nat × Nat) := none
deriving DecidableEq, Repr

/-- Where an image stands (18 R388, R393-R394): in the board flash or in supervisor memory, its first byte and length, the place of its 4-byte version
in it, and the place of its signature of 96 bytes in the same store. The manual gives no layout (log entry 95). -/
structure ImageRef where
  flash : Bool := true
  at_ : Nat := 0
  len : Nat := 0
  ver : Nat := 0
  sig : Nat := 0
deriving DecidableEq, Repr

/-- How the board flash is laid out (18 R388; log entry 95): the root key, the place of the image key in the key manifest, and the five images. -/
structure FlashMap where
  root : Nat := 0
  keyIn : Nat := 0
  images : Vector ImageRef 5 := Vector.replicate 5 {}
deriving DecidableEq, Repr

/-- An image that pair D has verified for a live update (18 R393): its kind, 3 a docent's and 4 tables, its address and length in supervisor memory, and
the digest of its bytes. -/
structure Verified where
  kind : Nat
  src : Nat
  len : Nat
  digest : BitVec 384
deriving DecidableEq, Repr

/-- The supervisor's registers as pair B has them from the last start or takeover (13 R275-R276): fabric and key registers, DUTY, the live masks,
and the ASIDs of the queues. -/
structure Base where
  regs : Table Nat Word := []
  duty : Nat := 0
  livedie : Nat := 0
  livecore : Vector Nat 12 := Vector.replicate 12 0
  asids : Table Nat Nat := []
deriving DecidableEq, Repr

/-- The supervisor complex (13 R274-R277, R409): `harts` the four pairs as software sees them, `late` the late replies that the Curator's station has
counted (15 R334), `sloush` the digests of the images that pairs A and B have loaded and `sloushAt` where those stand (18 R394), `rebuild` that a package
reset leaves Sloush to rebuild its state from the journal (16 R365), `base` the registers as the standby has them, `corrected` the corrected errors each unit has reported (03 R72), `journal` the records of the ring of 16,384, each the address and final value of a register,
`records` how many have been committed, and `copy` pair B's own copy, the last committed value of each. -/
structure Curator where
  pairs : Vector PairSt 4 := #v[.active, .standby, .service, .service]
  refreshed : Nat := 0
  takeover : Bool := false
  planned : Bool := false
  swapAsked : Bool := false
  tqbase : Nat := 0
  tqSet : Bool := false
  tqwr : Nat := 0
  tqrd : Nat := 0
  mqbase : Nat := 0
  mqwr : Nat := 0
  mqrd : Nat := 0
  held : List (Nat × Nat × List Word) := []
  journal : List (Nat × Word) := []
  records : Nat := 0
  copy : Table Nat Word := []
  committedRd : Nat := 0
  pkgReset : Bool := false
  harts : Vector Hart 4 := Vector.replicate 4 {}
  late : Nat := 0
  sloush : Vector (BitVec 384) 2 := Vector.replicate 2 0
  sloushAt : Vector ImageRef 2 := Vector.replicate 2 {}
  rebuild : Bool := false
  base : Base := {}
  corrected : Table Nat Nat := []
deriving DecidableEq, Repr

/-- A temperature sensor (17 R382-R383): readings in sixteenths of a degree; `hist` holds the last 64 samples, newest first. -/
structure Sensor where
  raw : Int := 0
  used : Int := 0
  status : Nat := 0
  excl : Bool := false
  alm : Bool := false
  hist : List Int := []
  clear : Nat := 0
deriving DecidableEq, Repr

/-- The power registers and the ladder (17 R370-R375): `settled` is the level whose step has been carried out, `was` the level before that
step and `steps` the number of steps, `assisted` DUTY bit 4 as
the last step found it, `heldSince` the latest step down, `downAt`, `lastRaise`, `lastFall`, `overSince` and `underSince` the times the closed loop counts from, `counted`
the power messages dropped, `sampled` when each die's sensors, the Curator's last, were sampled (17 R381). -/
structure Power where
  level : Nat := 7
  settled : Nat := 7
  was : Nat := 7
  steps : Nat := 0
  assisted : Bool := false
  pinreq : Nat := 7
  fabreq : Nat := 7
  fwreq : Nat := 7
  pinen : Bool := true
  faben : Bool := true
  depth : Nat := 0
  stepAt : Option Nat := none
  downAt : Option Nat := none
  heldSince : Option Nat := none
  map : Vector Nat 8 := #v[7, 6, 5, 4, 2, 2, 1, 0]
  pmeas : Nat := 0
  overSince : Option Nat := none
  underSince : Option Nat := none
  lastRaise : Nat := 0
  lastFall : Nat := 0
  pnonce : Word := 0
  counted : Nat := 0
  tjtrip : Nat := 120
  tjthr : Nat := 105
  charge : Nat := 12000
  sampled : Vector Nat 13 := Vector.replicate 13 0
  archA : Nat := 0
  archB : Nat := 0
  archseq : Nat := 0
deriving DecidableEq, Repr

/-- Bring-up and service state (18 R388-R396); `left` has the positions that BYPASS has skipped since the cold reset, `fused` the
anti-rollback counters, `rootHash` the fused SHA-384 of the root key, `flash` the layout of the board flash, `imageKey` the manifest's image key as the boot ROM
keeps it, `verified` the images that pair D has verified for live updates, `trained` the dies that have passed stage 3, `tested` those that have passed stage 5 and `testedCores` their
cores, `vaultFail` the dies whose vault failed, `reopened` the cores returned to service since the last offer to their die (18 R392), the `doc` fields are
DOCUPD's. -/
structure Service where
  stage : Nat := 0
  failImage : Nat := 0
  meas : Vector (BitVec 384) 16 := Vector.replicate 16 0
  livedie : Nat := 0
  livecore : Vector Nat 12 := Vector.replicate 12 0
  scal : List (Nat × Int) := []
  bypass : Nat := 0
  left : Nat := 0
  fused : Vector Nat 5 := Vector.replicate 5 0
  rootHash : BitVec 384 := 0
  flash : FlashMap := {}
  imageKey : Nat × Nat := (0, 0)
  verified : List Verified := []
  trained : Nat := 0
  tested : Nat := 0
  testedCores : Vector Nat 12 := Vector.replicate 12 0
  vaultFail : Nat := 0
  reopened : List (Nat × Nat) := []
  tables : ConsTables := ⟨0, 0, .replicate 4 0, .replicate 5 0, .replicate 5 0, .replicate 5 0, 2400000000⟩
  docSrc : Nat := 0
  docLen : Nat := 0
  docDie : Nat := 0
  docCore : Nat := 0
  docLoading : Bool := false
  docRefused : Bool := false
deriving DecidableEq, Repr

/-- Whether the module runs, is in reset, or is without power (00 R9, 17 R386). -/
inductive Module where
  | running | reset | off
deriving DecidableEq, Repr

/-! ### The whole package -/

/-- What a stage of the bring-up comes to (18 R391): 2 the pairs start; 3 the dies whose vats pass; 4 the gallery ring's link keys; 5 the dies that pass,
those whose vaults do, and the cores that pass their self-test; 6 PART0 to PART3 with their domain keys; 7 the keys of the wing's and hall's links, with
the measurements that each peer reports; 8 the last. -/
inductive StageResult where
  | start
  | vats (dies : Nat)
  | ring (keys : List (Nat × BitVec 256))
  | selfTest (dies vaults : Nat) (cores : List Nat)
  | masks (parts : List (Word × Word))
  | links (peers : List (Nat × BitVec 256 × List (BitVec 384)))
  | queues
deriving DecidableEq, Repr

/-- What the Curator's pairs do that the opcode table has no row for: a hart runs an instruction of its own set or has an
interrupt line moved (13 R274; log entry 96), the
monitor extends a measurement register on Sloush's request (18 R389), the standby loads a Sloush image (18 R394), pair C erases the older
archive slot (17 R386), pair D verifies an image for a live update (18 R393), the stages of the bring-up follow one another (18 R391); and it takes the report of an error that a die's SRAMs (unit d), its vat floor (16 + d) or the package (12) has corrected,
which no program sees (03 R72). -/
inductive CuratorAct where
  | hart (pair : Nat)
  | line (pair n : Nat) (up : Bool)
  | measure (n : Nat) (digest : BitVec 384)
  | loadSloush (image : ImageRef)
  | verify (kind : Nat) (image : ImageRef)
  | stage (r : StageResult)
  | eraseSlot
  | corrected (unit : Nat)
deriving DecidableEq, Repr

/-! ### Memory order (04 R74-R98) -/

/-- What holds the knowledge of a write (04 R84-R89): an agent, or the agents of a core, that must observe it; and the places where a release has left
it for an acquire: a byte that a release store or RMW of a core wrote, for that core alone if it was narrow (R78); a release write of that number that is
still to be performed; a vault word, for the acquirers of a die (R79); the phase under way of a byte barrier (R92); a slot of a stream; the n-th command of
a queue; a tile that an ME has committed; the bytes a command counts towards its barrier, a copy's token, and what came from outside under a source. -/
inductive Holder where
  | agent (ag : AgentId)
  | core (c : CoreId)
  | byte (addr : Nat) (by_ : CoreId) (narrow : Bool)
  | release (id : Nat)
  | word (key die : Nat)
  | phase (key : Nat)
  | slot (launch idx k : Nat)
  | command (ag : AgentId) (n : Nat)
  | tile (at_ : CtxId) (t : Nat)
  | counted (ag : AgentId)
  | token (at_ : CtxId) (reg : Nat)
  | outside (die src : Nat)
deriving DecidableEq, Repr

/-- A write of an agent (04 R76), of bytes of one block of 64 bytes, the unit of a region (04 R86): `block` is its number in VA, or from 2^57 on in local
S-space, `cells` the places with the bytes to write while it is late, and with the bytes it overwrote once it is performed; `task` the launch, node and
point of its task. `seen` are the agents that have observed it at a byte. A strong write may be narrow (04 R78) or a release; `epoch` counts the FENCE.WW
before it (04 R83). -/
structure Write where
  id : Nat
  by_ : Option AgentId
  task : Option (Nat × Nat × List Nat) := none
  block : Nat
  cells : List (Nat × Byte)
  holders : List Holder := []
  seen : List (AgentId × Nat) := []
  strong : Bool := false
  narrow : Bool := false
  rel : Bool := false
  epoch : Nat := 0
deriving DecidableEq, Repr

/-- What the memory order still leaves open, oldest first (04 R76, R81, R90): the writes that have issued and are not performed at their home, and those
that are performed and that not every agent must observe yet. -/
structure Order where
  late : List Write := []
  open_ : List Write := []
deriving DecidableEq, Repr

/-- What a turn takes of the freedom that the memory order leaves (log entry 7): whether a write that issues stays late, whether one that is performed stays
open to be missed, and for each byte that is read, or for a strong access as a whole, how many of the newest writes that its reader need not observe it
does not observe. -/
structure Leeway where
  late : Bool := false
  hide : Bool := false
  misses : List Nat := []
deriving DecidableEq, Repr

/-- What takes a turn: an agent of a core, admissions, an event, a pair of the Curator, or a late write that is performed, a weak one perhaps in part:
the positions of the bytes that are. -/
inductive Move where
  | agent (ag : AgentId)
  | admissions
  | event (i : Instr)
  | curator (x : CuratorAct)
  | perform (id : Nat) (part : List Nat)
deriving DecidableEq, Repr

/-- A turn: how many reference cycles pass before it, what it is, and what it takes of the memory order's freedom (log entry 4). -/
structure Turn where
  dt : Nat
  what : Move
  leeway : Leeway := {}
deriving DecidableEq, Repr

/-- The state of the package; `cycle` counts reference cycles from cold reset, `cycleBase` is its value at the last package reset. -/
structure State where
  mem : List Host.Cell
  ecc : List Nat
  vault : List (Nat × Word)
  vaultBad : List Nat
  vaultHit : List Nat
  regs : Table Nat Word
  ctxs : Table CtxId Ctx
  tasks : Table CtxId (Option Task)
  streams : Table AgentId Stream
  ves : Table CtxId Ve
  mes : Table CtxId MeSlot
  cores : Table CoreId Core
  dies : Table Nat Die
  gallery : List StreamSt
  queues : Table Nat Queue
  errmap : List Nat
  turnOf : Option (Nat × Nat)
  launchSeq : Nat
  launches : List Launch
  pvFirst : Nat
  pvLast : Nat
  waiters : List (Nat × AgentId × Nat)
  reqs : List Req
  tagTimes : List (Nat × Nat × Nat × Nat)
  combining : List Combining
  links : Table Nat Link
  cur : Curator
  duty : Nat
  power : Power
  sensors : Table Nat Sensor
  service : Service
  cycle : Nat
  cycleBase : Nat
  pkg : Nat
  mode : Module
  agenda : List Turn
  turn : Move
  agent : AgentId
  outbox : List Out
  freeCtr : Nat
  nextId : Nat
  order : Order
  leeway : Leeway
deriving DecidableEq, Repr

/-- The machine right after cold reset, before bring-up (16 R367, 17 R370, 18 R388-R391; log entries 1 to 6): memory and vaults with
nothing listed, every register at its reset value, no task anywhere, pair A active. -/
def State.reset : State where
  mem := []
  ecc := []
  vault := []
  vaultBad := []
  vaultHit := []
  regs := []
  ctxs := []
  tasks := []
  streams := []
  ves := []
  mes := []
  cores := []
  dies := []
  gallery := []
  queues := []
  errmap := []
  turnOf := none
  launchSeq := 0
  launches := []
  pvFirst := 0x1000
  pvLast := 0xFFFF
  waiters := []
  reqs := []
  tagTimes := []
  combining := []
  links := []
  cur := {}
  duty := 0
  power := {}
  sensors := []
  service := {}
  cycle := 0
  cycleBase := 0
  pkg := 0
  mode := .reset
  agenda := []
  turn := .admissions
  agent := ⟨0, 0, 0, .scu⟩
  outbox := []
  freeCtr := 0
  nextId := 1
  order := {}
  leeway := {}

end Sys2Proof.Machine
end

