-- ==== Sys2Proof/Machine/Access.lean ====
section
/-! DEFINITION. Reading and writing the parts of the state, and the storage: bytes with their ECC words, the place of every byte of the
package in one global space, and vault words. -/

namespace Sys2Proof

/-- The context of an agent's slot. -/
def AgentId.ctx (a : AgentId) : CtxId := ⟨a.die, a.core, a.slot⟩
/-- The core of an agent. -/
def AgentId.coreId (a : AgentId) : CoreId := ⟨a.die, a.core⟩
/-- The core of a context. -/
def CtxId.coreId (c : CtxId) : CoreId := ⟨c.die, c.core⟩
/-- The agent of a context's slot on an engine, or the context itself. -/
def CtxId.agent (c : CtxId) (k : AgentKind) : AgentId := ⟨c.die, c.core, c.ctx, k⟩
/-- A context of a core. -/
def CoreId.ctx (c : CoreId) (x : Nat) : CtxId := ⟨c.die, c.core, x⟩
/-- The number of an agent kind: 0 SCU to 4 XE (13 R279). -/
def AgentKind.num : AgentKind → Nat
  | .scu => 0 | .ve => 1 | .me => 2 | .ce => 3 | .xe => 4
/-- The agent kind of an engine field: 0 VE, 1 ME, 2 CE, 3 XE (05 R111). -/
def engineKind : Nat → AgentKind
  | 0 => .ve | 1 => .me | 2 => .ce | _ => .xe
/-- The four engine kinds. -/
def engineKinds : List AgentKind := [.ve, .me, .ce, .xe]
/-- The four task slots of a core. -/
def CoreId.slots (c : CoreId) : List CtxId := (List.range 4).map (fun x => ⟨c.die, c.core, x⟩)

end Sys2Proof

namespace Sys2Proof.Machine

/-! ### Parts of the state -/

/-- A context. -/
def State.ctx (s : State) (c : CtxId) : Ctx := Table.get {} s.ctxs c
/-- Replaces a context. -/
def State.setCtx (s : State) (c : CtxId) (x : Ctx) : State := { s with ctxs := Table.put s.ctxs c x }
/-- Changes a context. -/
def State.modCtx (s : State) (c : CtxId) (f : Ctx → Ctx) : State := s.setCtx c (f (s.ctx c))
/-- The task of a slot. -/
def State.task (s : State) (c : CtxId) : Option Task := Table.get none s.tasks c
/-- Replaces the task of a slot. -/
def State.setTask (s : State) (c : CtxId) (x : Option Task) : State := { s with tasks := Table.put s.tasks c x }
/-- Changes the task of a slot, when there is one. -/
def State.modTask (s : State) (c : CtxId) (f : Task → Task) : State :=
  match s.task c with
  | some t => s.setTask c (some (f t))
  | none => s
/-- An engine stream. -/
def State.stream (s : State) (a : AgentId) : Stream := Table.get {} s.streams a
/-- Replaces an engine stream. -/
def State.setStream (s : State) (a : AgentId) (x : Stream) : State := { s with streams := Table.put s.streams a x }
/-- Changes an engine stream. -/
def State.modStream (s : State) (a : AgentId) (f : Stream → Stream) : State := s.setStream a (f (s.stream a))
/-- The VE state of a slot. -/
def State.ve (s : State) (c : CtxId) : Ve := Table.get {} s.ves c
/-- Replaces the VE state of a slot. -/
def State.setVe (s : State) (c : CtxId) (x : Ve) : State := { s with ves := Table.put s.ves c x }
/-- Changes the VE state of a slot. -/
def State.modVe (s : State) (c : CtxId) (f : Ve → Ve) : State := s.setVe c (f (s.ve c))
/-- The ME state of a slot. -/
def State.me (s : State) (c : CtxId) : MeSlot := Table.get {} s.mes c
/-- Replaces the ME state of a slot. -/
def State.setMe (s : State) (c : CtxId) (x : MeSlot) : State := { s with mes := Table.put s.mes c x }
/-- Changes the ME state of a slot. -/
def State.modMe (s : State) (c : CtxId) (f : MeSlot → MeSlot) : State := s.setMe c (f (s.me c))
/-- A core's shared state. -/
def State.core (s : State) (c : CoreId) : Core := Table.get {} s.cores c
/-- Replaces a core's shared state. -/
def State.setCore (s : State) (c : CoreId) (x : Core) : State := { s with cores := Table.put s.cores c x }
/-- Changes a core's shared state. -/
def State.modCore (s : State) (c : CoreId) (f : Core → Core) : State := s.setCore c (f (s.core c))
/-- A die. -/
def State.die (s : State) (d : Nat) : Die := Table.get {} s.dies d
/-- Replaces a die. -/
def State.setDie (s : State) (d : Nat) (x : Die) : State := { s with dies := Table.put s.dies d x }
/-- Changes a die. -/
def State.modDie (s : State) (d : Nat) (f : Die → Die) : State := s.setDie d (f (s.die d))
/-- A work queue. -/
def State.queue (s : State) (q : Nat) : Queue := Table.get {} s.queues q
/-- Replaces a work queue. -/
def State.setQueue (s : State) (q : Nat) (x : Queue) : State := { s with queues := Table.put s.queues q x }
/-- Changes a work queue. -/
def State.modQueue (s : State) (q : Nat) (f : Queue → Queue) : State := s.setQueue q (f (s.queue q))
/-- An ingress control block. -/
def Die.icb (d : Die) (q : Nat) : Icb := Table.get {} d.icbs q
/-- Replaces an ingress control block. -/
def State.setIcb (s : State) (d q : Nat) (x : Icb) : State := s.modDie d (fun e => { e with icbs := Table.put e.icbs q x })
/-- A link. -/
def State.link (s : State) (l : Nat) : Link := Table.get {} s.links l
/-- Changes a link. -/
def State.modLink (s : State) (l : Nat) (f : Link → Link) : State := { s with links := Table.put s.links l (f (s.link l)) }
/-- Sends something out of the package (log entry 6). -/
def State.send (s : State) (o : Out) : State := { s with outbox := s.outbox ++ [o] }

/-! ### Places -/

/-- The global address of vat byte `pa` of die `d`: its Curator physical address (15 R323). -/
def vatAt (d pa : Nat) : Nat := 0x5000000000 + d * 0x2000000000 + pa
/-- The global address of S-space byte `a` of die `d`'s scratchpad: its Curator physical address (05 R128, 03 R407). -/
def scratchAt (d a : Nat) : Nat := 0x4600000000 + d * 0x10000000 + a
/-- The global address of an admissions memory byte: its Curator physical address (14 R291). -/
def admAt (a : Nat) : Nat := 0x4200000000 + a
/-- The model's place of byte `off` of tile position `pos` of a core. -/
def tileAt (c : CoreId) (pos off : Nat) : Nat := 2 ^ 48 + ((c.die * 64 + c.core) * 16 + pos) * 65536 + off
/-- The model's place of I-space byte `off` of a core. -/
def ispaceAt (c : CoreId) (off : Nat) : Nat := 2 ^ 49 + (c.die * 64 + c.core) * 32768 + off
/-- The model's place of docent memory byte `off` of a core (13 R270). -/
def docentAt (c : CoreId) (off : Nat) : Nat := 2 ^ 50 + (c.die * 64 + c.core) * 8192 + off
/-- The model's place of supervisor memory byte `off` (13 R274). -/
def supAt (off : Nat) : Nat := 2 ^ 51 + off
/-- The model's place of board flash byte `off` (17 R386). -/
def flashAt (off : Nat) : Nat := 2 ^ 52 + off
/-- The model's place of byte `off` of slot `k` of a launch's stream buffer (10 R243). -/
def streamAt (launch idx k off : Nat) : Nat := 2 ^ 80 + ((launch * 64 + idx) * 4096 + k) * 65536 + off

/-! ### Bytes -/

/-- The byte at a global address: what is listed, else 0 (log entry 2). -/
def State.rd (s : State) (a : Nat) : Byte := Sparse.get (0 : Byte) s.mem a
/-- Writes one byte, without regard to ECC. -/
def State.wr (s : State) (a : Nat) (b : Byte) : State := { s with mem := Sparse.set (0 : Byte) s.mem a b }
/-- The canonical form of memory: addresses strictly rising, no listed byte 0. -/
def Memory.wf (m : List Host.Cell) : Bool := Sparse.wf (0 : Byte) m
/-- The bytes of a range. -/
def State.rdN (s : State) (a n : Nat) : List Byte := (List.range n).map (fun i => s.rd (a + i))

/-- The number of little-endian bytes (00 R3). -/
def leNat : List Byte → Nat
  | [] => 0
  | b :: t => b.toNat + 256 * leNat t
/-- The `n` low bytes of a number, little-endian (00 R3). -/
def natLe : Nat → Nat → List Byte
  | 0, _ => []
  | n + 1, v => BitVec.ofNat 8 v :: natLe n (v / 256)

/-- A little-endian number read from storage. -/
def State.rdNat (s : State) (a n : Nat) : Nat := leNat (s.rdN a n)

/-- Pairs a range's addresses with its bytes. -/
def cellsAt : Nat → List Byte → List (Nat × Byte)
  | _, [] => []
  | a, b :: t => (a, b) :: cellsAt (a + 1) t

/-- The bad ECC words that a list of byte writes covers wholly (03 R72). -/
def State.eccCovered (s : State) (cs : List (Nat × Byte)) : List Nat :=
  s.ecc.filter (fun w => (List.range 8).all (fun i => cs.any (fun c => c.1 == w + i)))

/-- Puts bytes into storage: a bad ECC word keeps its error and its bytes unless all 8 are written (03 R72). -/
def State.put (s : State) (cs : List (Nat × Byte)) : State :=
  let bad := s.ecc.filter (fun w => !(s.eccCovered cs).contains w)
  let kept := cs.filter (fun c => !bad.contains (c.1 / 8 * 8))
  { s with mem := kept.foldl (fun m c => Sparse.set (0 : Byte) m c.1 c.2) s.mem, ecc := bad }

/-- A write that no longer holds some bytes back. -/
def Write.without (w : Write) (p : Nat → Bool) : Write := { w with cells := w.cells.filter (fun c => !p c.1) }

/-- Every agent observes the present values of some bytes: the open writes to them are open there no more (04 R80). -/
def Order.shown (o : Order) (p : Nat → Bool) : Order :=
  { o with open_ := (o.open_.map (fun w => w.without p)).filter (fun w => !w.cells.isEmpty) }

/-- Another write than an RMW ends what a release has left at some bytes (04 R84). -/
def Order.broken (o : Order) (p : Nat → Bool) : Order :=
  let cut (w : Write) : Write := { w with holders := w.holders.filter (fun h => match h with | .byte b _ _ => !p b | _ => true) }
  { late := o.late.map cut, open_ := o.open_.map cut }

/-- Writes bytes at their home, for every agent to observe. -/
def State.store (s : State) (cs : List (Nat × Byte)) : State :=
  let p (h : Nat) : Bool := cs.any (fun c => c.1 == h)
  { s.put cs with order := (s.order.shown p).broken p }

/-- The write of an RMW at its home: what a release has left at its bytes stays there, for whoever reads the chain (04 R84). -/
def State.storeRmw (s : State) (cs : List (Nat × Byte)) : State :=
  { s.put cs with order := s.order.shown (fun h => cs.any (fun c => c.1 == h)) }

/-- Writes a run of bytes at their home. -/
def State.storeAt (s : State) (a : Nat) (bs : List Byte) : State := s.store (cellsAt a bs)

/-- The first uncorrectable ECC word that a list of byte addresses touches, as the address TVAL gives (03 R72): the word's address, or
the access's own address when the word begins before it. -/
def State.eccHit (s : State) (as : List Nat) : Option Nat :=
  match as.find? (fun a => s.ecc.contains (a / 8 * 8)) with
  | some a => some (if as.contains (a / 8 * 8) then a / 8 * 8 else a)
  | none => none

/-- Clears a range to zero with fresh check bits. -/
def State.clearRange (s : State) (lo n : Nat) : State :=
  let p (a : Nat) : Bool := decide (lo ≤ a) && decide (a < lo + n)
  { s with mem := s.mem.filter (fun c => !p c.1), ecc := s.ecc.filter (fun a => !p a), order := (s.order.shown p).broken p }

/-- CYCLE: the reference cycles since the last package reset (05 R121). -/
def State.cycles (s : State) : Nat := s.cycle - s.cycleBase
/-- CYCLE as a core reads it: from what the supervisor last wrote on (13 R272; log entry 87). -/
def State.cycleOf (s : State) (c : CoreId) : Word := BitVec.ofNat 64 s.cycles + (s.core c).cycleAdj

/-! ### The clocks of the units (17 R377) -/

/-- The cycles a unit of a core (0 SCU, 1 VE, 2 ME, 3 CE, 4 XE) has had by a reference cycle: one in every `d`, and exact under a change of
divisor (00 R4). -/
def Core.unitCycles (k : Core) (u now : Nat) : Nat :=
  let b := k.unitBase.getD u (0, 0)
  b.1 + (now - b.2) / k.clkeff.getD u 1
/-- The reference cycle in which a unit has had a number of cycles. -/
def Core.unitTime (k : Core) (u n : Nat) : Nat :=
  let b := k.unitBase.getD u (0, 0)
  b.2 + (n - b.1) * k.clkeff.getD u 1
/-- A unit under another divisor, from a reference cycle on. -/
def Core.setDivisor (k : Core) (u d now : Nat) : Core :=
  if k.clkeff.getD u 1 = d then k
  else { k with unitBase := setNth k.unitBase u (k.unitCycles u now, now), clkeff := setNth k.clkeff u d }
/-- The cycles a unit of a core has had. -/
def State.unitCycles (s : State) (c : CoreId) (u : Nat) : Nat := (s.core c).unitCycles u s.cycle

/-- The ladder depth a die applies: the greater of the package's and its own, or 7 while it is tripped (17 R376, R384). -/
def State.depthOf (s : State) (d : Nat) : Nat := max s.power.depth (if (s.die d).tripped then 7 else (s.die d).depth)

/-- The effective divisor of an agent kind at a ladder depth. -/
def ladderDivisor (k : AgentKind) (depth p : Nat) : Nat :=
  match k with
  | .ve => if 1 ≤ depth then min 8 (2 * p) else p
  | .ce => if 3 ≤ depth then min 8 (2 * p) else p
  | .scu => if 6 ≤ depth then max 4 p else p
  | _ => p

/-- The divisor under which a slot of a unit runs: a VE slot that the ladder has slowed has one of its own (17 R376). -/
def Core.divisorOf (k : Core) (kind : AgentKind) (slot : Nat) : Nat :=
  let d := k.clkeff.getD kind.num 1
  if kind = .ve ∧ k.slow.getD slot false then ladderDivisor .ve 1 d else d

/-- The cycles that a slot of a unit has had by a reference cycle. -/
def Core.slotCycles (k : Core) (kind : AgentKind) (slot now : Nat) : Nat :=
  let b := k.unitBase.getD kind.num (0, 0)
  b.1 + (now - b.2) / k.divisorOf kind slot

/-- Whether an ME whose die applies a ladder depth issues in an ME cycle: from step 4 on in even cycles, from step 5 on in every fourth
(17 R376). -/
def dutyCycle (depth n : Nat) : Bool := if 5 ≤ depth then n % 4 == 0 else if 4 ≤ depth then n % 2 == 0 else true
/-- The cycles that steps 4 and 5 of the ladder leave the ME, from one of its cycles up to another. -/
def dutyCount (depth m n : Nat) : Nat :=
  let every := if 5 ≤ depth then 4 else if 4 ≤ depth then 2 else 1
  (n + every - 1) / every - (m + every - 1) / every
/-- Whether the ME of a core may issue and stream in the present cycle. -/
def State.meDuty (s : State) (c : CoreId) : Bool := dutyCycle (s.depthOf c.die) (s.unitCycles c 2)

/-! ### Vault words -/

/-- The key of word `i` of die `d`'s vault (03 R63). -/
def dieWord (d i : Nat) : Nat := d * 65536 + i
/-- The key of word `i` of the package vault (03 R63). -/
def pkgWord (i : Nat) : Nat := 16 * 65536 + i
/-- A vault word. -/
def State.word (s : State) (key : Nat) : Word := Sparse.get (0 : Word) s.vault key
/-- Writes a vault word, which also gives it fresh check bits. -/
def State.setWord (s : State) (key : Nat) (w : Word) : State :=
  { s with vault := Sparse.set (0 : Word) s.vault key w, vaultBad := s.vaultBad.filter (fun k => k ≠ key) }

/-! ### Free values and names -/

/-- Takes the next number of the free-value counter (log entry 5). -/
def State.tick (s : State) : State := { s with freeCtr := s.freeCtr + 1 }
/-- Takes the next name for a transfer, access or pass. -/
def State.named (s : State) : State := { s with nextId := s.nextId + 1 }

/-! ### Curator registers -/

/-- The value a Curator register holds after cold reset (15 R334; log entry 1): TOUT is 200, every other word zero. -/
def regReset (pa : Nat) : Word :=
  if 0x4300000000 ≤ pa ∧ pa < 0x4300C00000 ∧ pa % 0x100000 = 0x48 then 200 else 0
/-- A Curator register word. -/
def State.reg (s : State) (pa : Nat) : Word := Table.get (regReset pa) s.regs pa
/-- Writes a Curator register word. -/
def State.setReg (s : State) (pa : Nat) (v : Word) : State := { s with regs := Table.put s.regs pa v }
/-- A fabric register of a die (15 R334). -/
def State.fab (s : State) (d off : Nat) : Word := s.reg (0x4300000000 + d * 0x100000 + off)
/-- A fabric register of the package (15 R334). -/
def State.fabPkg (s : State) (off : Nat) : Word := s.reg (0x4301000000 + off)
/-- A 256-bit key held in four write-only words. -/
def State.key256 (s : State) (pa : Nat) : BitVec 256 :=
  BitVec.ofNat 256 ((s.reg pa).toNat + (s.reg (pa + 8)).toNat * 2 ^ 64 + (s.reg (pa + 16)).toNat * 2 ^ 128
    + (s.reg (pa + 24)).toNat * 2 ^ 192)
/-- Bits of a word. -/
def wfld (w : Word) (lo n : Nat) : Nat := fld w.toNat lo n
/-- A single bit of a word. -/
def wbit (w : Word) (i : Nat) : Bool := w.toNat.testBit i

end Sys2Proof.Machine
end

