-- ==== Sys2Proof/Machine/Order.lean ====
section
/-! DEFINITION. The memory order (04 R74-R98): which writes an agent need not observe yet, reads that miss them, writes that are performed late, and what
releases publish and acquires take. A turn chooses how much of this freedom it uses; with none, every write is performed at its home as it issues and every
agent observes it (log entry 7). -/

namespace Sys2Proof.Machine

/-! ### What an agent observes (04 R80, R89, R90) -/

/-- Whether a write has a byte at a place. -/
def Write.touches (w : Write) (h : Nat) : Bool := w.cells.any (fun c => c.1 == h)

/-- Whether two writes meet. -/
def Write.meets (w v : Write) : Bool := w.cells.any (fun c => v.touches c.1)

/-- The byte a write has at a place. -/
def Write.byteAt (w : Write) (h : Nat) : Option Byte := (w.cells.find? (fun c => c.1 == h)).map Prod.snd

/-- Whether an agent must observe an open write at a byte: its own, one that it has acquired or that has been published to its core, or one that it has
observed there. -/
def Write.knownTo (w : Write) (a : AgentId) (h : Nat) : Bool :=
  w.by_ == some a || w.holders.contains (.agent a) || w.holders.contains (.core a.coreId) || w.seen.contains (a, h)

/-- The open writes to some bytes that an agent need not observe, newest first: at each byte none that is coherence-earlier than one that it must. -/
def State.unseen (s : State) (a : AgentId) (hs : List Nat) : List Write :=
  (s.order.open_.reverse.filter (fun w => hs.any w.touches)).takeWhile (fun w => hs.all (fun h => !w.touches h || !w.knownTo a h))

/-- The byte at a place as it is without some open writes, given newest first. -/
def State.rdWithout (s : State) (l : List Write) (h : Nat) : Byte := l.foldl (fun b w => (w.byteAt h).getD b) (s.rd h)

/-- Changes every open write, and every late one. -/
def State.mapWrites (s : State) (f : Write → Write) : State :=
  { s with order := { late := s.order.late.map f, open_ := s.order.open_.map f } }

/-- An agent has observed every open write to a byte but some. -/
def State.observe (s : State) (a : AgentId) (h : Nat) (but : List Write) : State :=
  { s with order := { s.order with open_ := s.order.open_.map (fun w =>
      if w.touches h && !w.knownTo a h && !but.contains w then { w with seen := (a, h) :: w.seen } else w) } }

/-- One byte of a weak read, which misses as many of the newest writes as it is given, as far as it may; an agent's own late write is observed by
it (04 R74, 06 R146). -/
def State.seeByte (s : State) (a : AgentId) (h missed : Nat) : Byte × State :=
  match s.order.late.reverse.find? (fun w => w.by_ == some a && w.touches h) with
  | some w => ((w.byteAt h).getD 0, s)
  | none =>
    let l := (s.unseen a [h]).take missed
    (s.rdWithout l h, s.observe a h l)

/-- The bytes of a weak read, each by itself (04 R76, R90). -/
def State.seeBytes (s : State) (a : AgentId) : List Nat → List Nat → List Byte × State
  | [], _ => ([], s)
  | h :: t, ms =>
    let r := s.seeByte a h (ms.headD 0)
    let q := r.2.seeBytes a t ms.tail
    (r.1 :: q.1, q.2)

/-- Whether the memory order leaves nothing open. -/
def Order.quiet (o : Order) : Bool := o.late.isEmpty && o.open_.isEmpty

/-- A weak read by an agent. -/
def State.see (s : State) (a : AgentId) (hs : List Nat) : List Byte × State :=
  if s.order.quiet then (hs.map s.rd, s) else s.seeBytes a hs s.leeway.misses

/-- A weak read of some bytes whose reader keeps no account of them, after others of the same access. -/
def State.glance (s : State) (a : AgentId) (before : Nat) (hs : List Nat) : List Byte :=
  if s.order.quiet then hs.map s.rd else (s.seeBytes a hs (s.leeway.misses.drop before)).1

/-! ### Performing late writes (04 R76, R80-R83) -/

/-- Whether a late write must be performed before a later one: they meet and are one agent's, or narrow ones of one core; the later one is a release, in
whose scope the earlier must be; or both are strong and a FENCE.WW stands between. -/
def Write.precedes (w v : Write) : Bool :=
  (w.meets v && (w.by_ == v.by_ || (w.narrow && v.narrow && w.by_.map AgentId.coreId == v.by_.map AgentId.coreId)))
    || (w.by_ == v.by_ && ((v.rel && !v.narrow) || (w.strong && v.strong && decide (w.epoch < v.epoch))))

/-- The late writes that some need, with these themselves, oldest first. -/
def needed (p : Write → Bool) (l : List Write) : List Write :=
  l.reverse.foldl (fun acc w => if p w || acc.any w.precedes then w :: acc else acc) []

/-- What the release write of a number publishes is found from now on at its bytes (04 R84). -/
def State.released (s : State) (w : Write) : State :=
  let from_ : List Holder := match w.by_ with | some a => w.cells.map (fun c => .byte c.1 a.coreId w.narrow) | none => []
  s.mapWrites (fun v => if v.holders.contains (.release w.id) then { v with holders := v.holders.erase (.release w.id) ++ from_ } else v)

/-- Some bytes of a weak write are performed and stay open to be missed. -/
def State.storeOpen (s : State) (ws : List Write) (cs : List (Nat × Byte)) : State :=
  let old (w : Write) : Write := { w with cells := w.cells.map (fun c => (c.1, s.rd c.1)) }
  let o := s.order.broken (fun h => cs.any (fun c => c.1 == h))
  { s.put cs with order := { o with open_ := o.open_ ++ ws.map old } }

/-- A late write takes its place in the coherence order of its bytes. A narrow one has acted on what releases left there, and has left its own, as it
issued. -/
def State.arrive (s : State) (w : Write) : State :=
  if w.narrow then s.storeRmw w.cells
  else if w.strong then
    let s := s.store w.cells
    if w.rel then s.released w else s
  else if s.leeway.hide then s.storeOpen [w] w.cells
  else s.store w.cells

/-- A late write is performed. -/
def State.land (s : State) (id : Nat) : State :=
  match s.order.late.find? (fun w => w.id == id) with
  | some w => ({ s with order := { s.order with late := s.order.late.filter (fun v => v.id != id) } } : State).arrive w
  | none => s

/-- Late writes are performed in turn. -/
def State.lands (s : State) (l : List Write) : State := (l.map Write.id).foldl State.land s

/-- The late writes of a kind are performed, with those that must come before them. -/
def State.perform (s : State) (p : Write → Bool) : State :=
  if s.order.late.isEmpty then s else s.lands (needed p s.order.late)

/-- Every late write of an agent is performed. -/
def State.performOwn (s : State) (a : AgentId) : State := s.perform (fun w => w.by_ == some a)

/-- A late write is performed by itself, a weak one in part if its turn says so (04 R76). -/
def State.performOne (s : State) (id : Nat) (part : List Nat) : State :=
  match s.order.late.find? (fun w => w.id == id) with
  | none => s
  | some w =>
    if w.strong || part.isEmpty then s.perform (fun v => v.id == id)
    else
      let s := s.lands ((needed (fun v => v.id == id) s.order.late).filter (fun v => v.id != id))
      let now : List (Nat × Byte) := (numberedCells w.cells).filterMap (fun e => if part.contains e.1 then some e.2 else none)
      let rest : List (Nat × Byte) := (numberedCells w.cells).filterMap (fun e => if part.contains e.1 then none else some e.2)
      let s := s.arrive { w with cells := now }
      { s with order := { s.order with late := s.order.late.filterMap (fun v =>
          if v.id = id then (if rest.isEmpty then none else some { v with cells := rest }) else some v) } }
where
  /-- The bytes of a write with their positions. -/
  numberedCells (l : List (Nat × Byte)) : List (Nat × (Nat × Byte)) := (List.range l.length).zip l

/-! ### Weak writes (04 R75-R76) -/

/-- A byte of a write: its address, in VA or from 2^63 on in local S-space, its place, and its value. -/
abbrev Spot := Nat × Nat × Byte

/-- The spots of a run of bytes from an address. -/
def spotsAt (isS : Bool) (a : Nat) (cells : List (Nat × Byte)) : List Spot :=
  (rangeFrom (if isS then 2 ^ 63 + a else a) cells.length).zip cells

/-- Cuts spots into their blocks of 64 bytes. -/
def blocksOf : List Spot → List (Nat × List (Nat × Byte))
  | [] => []
  | e :: t =>
    match blocksOf t with
    | (k, cs) :: r => if k = e.1 / 64 then (k, e.2 :: cs) :: r else (e.1 / 64, [e.2]) :: (k, cs) :: r
    | [] => [(e.1 / 64, [e.2])]

/-- The launch, node and point of a slot's task. -/
def State.taskPoint (s : State) (c : CtxId) : Option (Nat × Nat × List Nat) := (s.task c).map (fun t => (t.launch, t.node, t.point))

/-- The writes of an agent to some spots, under fresh numbers. -/
def State.writesTo (s : State) (a : AgentId) (hs : List Holder) (l : List Spot) : List Write :=
  let bs := blocksOf l
  ((List.range bs.length).zip bs).map (fun e =>
    { id := s.nextId + e.1, by_ := some a, task := s.taskPoint a.ctx, block := e.2.1, cells := e.2.2, holders := hs })

/-- Whether the order of a write may be left open: its bytes are in no tile, whose places move, and in no word with an uncorrectable error, which
only a write of the whole word clears (03 R72). -/
def State.mayLinger (s : State) (cs : List (Nat × Byte)) : Bool :=
  cs.all (fun c => decide (c.1 < tileAt ⟨0, 0⟩ 0 0) && !s.ecc.contains (c.1 / 8 * 8))

/-- Whether a turn leaves the order of a write open. -/
def State.lingers (s : State) (cs : List (Nat × Byte)) : Bool := (s.leeway.late || s.leeway.hide) && s.mayLinger cs

/-- Weak writes to some spots, given: at once and for all to observe, or open, or late, as the turn says. -/
def State.weakly (s : State) (late : Bool) (ws : List Write) (cs : List (Nat × Byte)) : State :=
  if !s.lingers cs then s.store cs
  else
    let u : State := { s with nextId := s.nextId + ws.length }
    if late && s.leeway.late then { u with order := { u.order with late := u.order.late ++ ws } } else u.storeOpen ws cs

/-- A weak write of an agent, under some holders: of its late writes to these bytes those before it are performed first (04 R74). -/
def State.writeHeld (s : State) (a : AgentId) (hs : List Holder) (l : List Spot) : State :=
  let cs := l.map Prod.snd
  let s := if s.leeway.late && s.lingers cs then s else s.perform (fun w => w.by_ == some a && cs.any (fun c => w.touches c.1))
  s.weakly true (s.writesTo a hs l) cs

/-- A weak write of an agent. -/
def State.write (s : State) (a : AgentId) (l : List Spot) : State := s.writeHeld a [] l

/-- The write of a copy, whose token alone brings it to the context that issued it (04 R93). -/
def State.writeCopy (s : State) (c : CtxId) (reg : Nat) (l : List Spot) : State :=
  let ws := (s.writesTo (c.agent .scu) [.token c reg] l).map (fun w => { w with by_ := none })
  s.weakly true ws (l.map Prod.snd)

/-- The write of a source outside the die: it follows that source's earlier ones for whoever acquires at its bytes (04 R94; log entry 7). -/
def State.writeOutside (s : State) (d src : Nat) (l : List Spot) : State :=
  let cs := l.map Prod.snd
  let a : AgentId := ⟨d, 64, 0, .scu⟩
  let ws := (s.writesTo a [.outside d src] l).map (fun w => { w with by_ := none })
  let u := s.weakly false ws cs
  if u.order.quiet then u
  else u.mapWrites (fun w =>
    if w.holders.contains (.outside d src) then { w with holders := w.holders ++ cs.map (fun c => .byte c.1 a.coreId false) } else w)

/-! ### Releases (04 R84, R87-R88) -/

/-- Whether a binding's region has the block of a write (04 R86). -/
def Binding.has (b : Binding) (w : Write) : Bool :=
  let at_ := 64 * (w.block % 2 ^ 57)
  b.space == w.block / 2 ^ 57 && decide (b.base ≤ at_) && decide (at_ < b.base + b.len)

/-- The binding table of a context's task. -/
def State.bindings (s : State) (c : CtxId) : List Binding :=
  match s.task c with
  | some t => t.bindings
  | none => []

/-- The bindings an agent releases under: the task's as they stand, or those an engine's command captured at its start (04 R87). -/
def State.bindsOf (s : State) (a : AgentId) : List Binding := if a.kind = .scu then s.bindings a.ctx else (s.stream a).binds

/-- Whether a write lies in a region that an agent has bound to a semaphore. -/
def State.boundTo (s : State) (a : AgentId) (handle : Nat) (w : Write) : Bool :=
  (s.bindsOf a).any (fun b => b.obj == .sem handle && b.has w)

/-- Whether a write lies in a region that an agent has bound to the flag word of an address of VA or local S-space. -/
def State.flaggedBy (s : State) (a : AgentId) (isS : Bool) (addr : Nat) (w : Write) : Bool :=
  (s.bindsOf a).any (fun b => b.obj == .flag (addr / 8 * 8) && b.space == (if isS then 1 else 0) && b.has w)

/-- A release by an agent publishes at a place those of its own writes that are bound so, and every write that it has acquired or that a FENCE.ALL of its
has covered (04 R88). -/
def State.publish (s : State) (a : AgentId) (own : Write → Bool) (h : Holder) : State :=
  if s.order.quiet then s
  else s.mapWrites (fun w =>
    if (w.by_ == some a && own w) || w.holders.contains (.agent a) then { w with holders := w.holders ++ [h] } else w)

/-- An acquire by an agent: it must observe every write published at the places it acquires from, which are performed by then (04 R89). -/
def State.acquire (s : State) (a : AgentId) (p : Holder → Bool) : State :=
  if s.order.quiet then s
  else
    (s.perform (fun w => w.holders.any p)).mapWrites (fun w =>
      if w.holders.any p && !w.holders.contains (.agent a) then { w with holders := w.holders ++ [.agent a] } else w)

/-- A FENCE.ALL covers every earlier write of an agent: later releases of its publish them (04 R83). -/
def State.coverAll (s : State) (a : AgentId) : State :=
  if s.order.quiet then s
  else (s.performOwn a).mapWrites (fun w =>
    if w.by_ == some a && !w.holders.contains (.agent a) then { w with holders := w.holders ++ [.agent a] } else w)

/-! ### Strong accesses (04 R76-R81) -/

/-- Whether a release has left something at some bytes for an agent of a core to acquire, narrowly if the acquire is narrow (04 R78). -/
def Holder.atBytes (hs : List Nat) (c : CoreId) (narrow : Bool) : Holder → Bool
  | .byte b k n => hs.contains b && (k == c || !(n || narrow))
  | _ => false

/-- What must be performed before an agent's strong access to some bytes: its own late writes to them, but for a narrow one that its core observes as it
is; an RMW's, of a whole core's narrow writes too; and what a narrow release at these bytes has put before itself for its core. -/
def State.strongly (s : State) (a : AgentId) (hs : List Nat) (rmw : Bool) : State :=
  s.perform (fun w =>
    (hs.any w.touches && ((w.by_ == some a && !(w.narrow && !rmw)) || (rmw && w.narrow && w.by_.map AgentId.coreId == some a.coreId)))
      || w.holders.any (Holder.atBytes hs a.coreId false))

/-- The byte at a place in the buffers of a core (04 R78). -/
def State.inCore (s : State) (c : CoreId) (h : Nat) : Option Byte :=
  (s.order.late.reverse.find? (fun w => w.narrow && w.by_.map AgentId.coreId == some c && w.touches h)).bind (fun w => w.byteAt h)

/-- A relaxed strong read: all its bytes from one point of the coherence order. -/
def State.seeStrong (s : State) (a : AgentId) (hs : List Nat) : List Byte × State :=
  if s.order.quiet then (hs.map s.rd, s)
  else
    let s := s.strongly a hs false
    let l := (s.unseen a hs).take (s.leeway.misses.headD 0)
    (hs.map (fun h => (s.inCore a.coreId h).getD (s.rdWithout l h)), hs.foldl (fun s h => s.observe a h l) s)

/-- An acquire read: of the newest value, with what a release has left there (04 R84). -/
def State.seeAcquire (s : State) (a : AgentId) (hs : List Nat) (narrow : Bool) : List Byte × State :=
  if s.order.quiet then (hs.map s.rd, s)
  else
    let s := s.strongly a hs false
    (hs.map (fun h => (s.inCore a.coreId h).getD (s.rd h)),
     (hs.foldl (fun s h => s.observe a h []) s).acquire a (Holder.atBytes hs a.coreId narrow))

/-- The bytes that an RMW reads, the newest at their home. -/
def State.seeRmw (s : State) (a : AgentId) (hs : List Nat) : List Byte × State :=
  if s.order.quiet then (hs.map s.rd, s)
  else
    let s := s.strongly a hs true
    (hs.map s.rd, hs.foldl (fun s h => s.observe a h []) s)

/-- The write of an RMW, and what it publishes if it is a release, which its agent's late writes have preceded. -/
def State.writeRmw (s : State) (a : AgentId) (rel isS : Bool) (addr : Nat) (cs : List (Nat × Byte)) : State :=
  if rel then
    let s := s.performOwn a
    cs.foldl (fun s c => s.publish a (s.flaggedBy a isS addr) (.byte c.1 a.coreId false)) (s.storeRmw cs)
  else s.storeRmw cs

/-- A strong store to the bytes of one word: performed as it issues, with the writes that must precede it, or late. A narrow release is made in the
core's buffers as it issues. -/
def State.writeStrong (s : State) (a : AgentId) (rel narrow isS : Bool) (addr : Nat) (cs : List (Nat × Byte)) : State :=
  let late := s.leeway.late && s.mayLinger cs
  if s.order.quiet && !late then s.store cs
  else
    let id := s.nextId
    let w : Write := { id := id, by_ := some a, task := s.taskPoint a.ctx, block := (if isS then 2 ^ 57 else 0) + addr / 64, cells := cs, strong := true,
                       narrow := narrow, rel := rel, epoch := (s.ctx a.ctx).epoch }
    let s := if rel then s.publish a (s.flaggedBy a isS addr) (.release id) else s
    let s : State := { s with nextId := id + 1, order := { s.order with late := s.order.late ++ [w] } }
    let s : State := if narrow then { s with order := s.order.broken (fun h => w.touches h) } else s
    let s := if rel && narrow then s.released w else s
    if late then s else s.perform (fun v => v.id == id)

/-! ### Vault words (04 R79, R84, R92) -/

/-- A release on a vault word: a semaphore's is found there by the acquirers of the releasing die, a byte barrier's from the flip of the phase under
way. -/
def State.signal (s : State) (a : AgentId) (key : Nat) (barrier : Bool) (own : Write → Bool) : State :=
  (s.performOwn a).publish a own (if barrier then .phase key else .word key a.die)

/-- A byte barrier flips: what its phase has gathered is acquired from now on (04 R92). -/
def State.flip (s : State) (key die : Nat) : State :=
  if s.order.quiet then s
  else s.mapWrites (fun w =>
    if w.holders.contains (.phase key) then { w with holders := w.holders.erase (.phase key) ++ [.word key die] } else w)

/-- A wait on a vault word has completed. -/
def State.waited (s : State) (a : AgentId) (key : Nat) : State := s.acquire a (fun h => h == .word key a.die)

/-! ### Levels, tasks and slots (04 R89, 01 R20) -/

/-- Whether a write is of a task under a point of a level. -/
def Write.under (w : Write) (launch node : Nat) (point : List Nat) : Bool :=
  match w.task with
  | some (l, n, p) => l == launch && n == node && p.take point.length == point
  | none => false

/-- A point of a level has ended: its tasks' writes are published, to the agents of the core for the scope of a core, and else to all. -/
def State.publishPoint (s : State) (launch node : Nat) (point : List Nat) (scope : Nat) : State :=
  if s.order.quiet then s
  else
    let s := s.perform (fun w => w.under launch node point)
    if scope = 0 then
      s.mapWrites (fun w =>
        match w.by_, w.under launch node point with
        | some a, true => { w with holders := w.holders ++ [.core a.coreId] }
        | _, _ => w)
    else { s with order := { s.order with open_ := s.order.open_.filter (fun w => !w.under launch node point) } }

/-- A launch begins on a die: the order of each byte starts with its value then (04 R76), so that no write of a launch that is over can be missed. -/
def State.beginOrder (s : State) (d : Nat) : State :=
  if s.order.quiet then s
  else
    let gone (w : Write) : Bool := w.by_.map AgentId.die == some d && (match w.task with | some t => !s.launches.any (fun l => l.seq == t.1) | none => false)
    { s with order := { s.order with open_ := s.order.open_.filter (fun w => !gone w) } }

/-- Whether a place holds something for a slot that is cleared. -/
def Holder.ofSlot (c : CtxId) : Holder → Bool
  | .agent a | .command a _ | .counted a => a.ctx == c
  | .tile d _ | .token d _ => d == c
  | _ => false

/-- A slot is cleared: its late writes are performed, and its next task knows nothing of what the last one knew or wrote. The writes stay those of the
agents of their core. -/
def State.closeOrder (s : State) (c : CtxId) : State :=
  if s.order.quiet then s
  else
    (s.perform (fun w => w.by_.map AgentId.ctx == some c)).mapWrites (fun w =>
      { w with by_ := w.by_.map (fun a => if a.ctx = c then { a with slot := 5 } else a),
               holders := w.holders.filter (fun h => !Holder.ofSlot c h), seen := w.seen.filter (fun e => e.1.ctx != c) })

end Sys2Proof.Machine
end

