-- ==== Sys2Proof/Machine/Vault.lean ====
section
/-! DEFINITION. Semaphore words, pails and their operations (03 R63-R68), the order in which blocked decrements are served, replay counts
(16 R361), and the staging of an engine's operations (03 R70). -/

namespace Sys2Proof.Machine

/-! ### Semaphore words (03 R64) -/

/-- COUNT, signed. -/
def semCount (w : Word) : Int := signed 32 (wfld w 0 32)
/-- PHASE. -/
def semPhase (w : Word) : Bool := wbit w 32
/-- MODE. -/
def semMode (w : Word) : Nat := wfld w 33 3
/-- EXPECT. -/
def semExpect (w : Word) : Nat := wfld w 36 28
/-- A word from its fields. -/
def mkSem (expect mode : Nat) (phase : Bool) (count : Int) : Word :=
  BitVec.ofNat 64 (expect * 2 ^ 36 + mode * 2 ^ 33 + (if phase then 2 ^ 32 else 0) + (count % 2 ^ 32).toNat)
/-- A word with another COUNT. -/
def semWithCount (w : Word) (c : Int) : Word := mkSem (semExpect w) (semMode w) (semPhase w) c

/-- ByteBarrierAdd on a word (03 R66): the new word, or the cause. -/
def barrierAdd (w : Word) (n : Int) : Except Nat Word :=
  if n < 1 ∨ semExpect w = 0 ∨ semCount w + n > semExpect w then .error 0x09
  else if semCount w + n = semExpect w then .ok (mkSem (semExpect w) 1 (!semPhase w) 0)
  else .ok (semWithCount w (semCount w + n))

/-- SemAdd on a word (03 R65). -/
def semAdd (w : Word) (n : Int) : Except Nat Word :=
  if 4 ≤ semMode w then .error 0x09
  else if semMode w = 1 then barrierAdd w n
  else if 2 ≤ semMode w then .error 0x0A
  else if semCount w + n > 2 ^ 31 - 1 ∨ semCount w + n < -2 ^ 31 then .error 0x09
  else .ok (semWithCount w (semCount w + n))

/-- What an engine tests when it stages a SemAdd: MODE, and n at least 1 on a byte barrier; counts are found at the mark (08 R201). -/
def semAddStage (w : Word) (n : Int) : Except Nat Unit :=
  if 4 ≤ semMode w then .error 0x09
  else if semMode w = 1 then (if n < 1 then .error 0x09 else .ok ())
  else if 2 ≤ semMode w then .error 0x0A
  else .ok ()

/-- Whether a SemWait on a word completes (03 R65). -/
def semWait (w : Word) (n : Int) : Except Nat Bool :=
  if 4 ≤ semMode w then .error 0x09
  else if semMode w = 1 then .ok (semPhase w == decide (n % 2 = 1))
  else .ok (decide (n ≤ semCount w))

/-- SemWdec on a word (03 R65): the new word when it completes. -/
def semWdec (w : Word) (n : Int) : Except Nat (Option Word) :=
  if n < 1 ∨ 2 ^ 31 - 1 < n then .error 0x09
  else if 4 ≤ semMode w then .error 0x09
  else if 2 ≤ semMode w then .error 0x0A
  else if semMode w = 1 then .error 0x09
  else if n ≤ semCount w then .ok (some (semWithCount w (semCount w - n)))
  else .ok none

/-- SemArm on a word (03 R65). -/
def semArm (w : Word) (e : Nat) : Except Nat Word :=
  if e < 1 ∨ 2 ^ 28 - 1 < e then .error 0x09
  else if semMode w ≠ 1 then .error 0x09
  else .ok (mkSem e 1 (semPhase w) 0)

/-! ### Handles (03 R63, R67) -/

/-- Whether word `i` of the die vault (V = 0) or the package vault (V = 1) is in a task's allotment. -/
def Task.holds (t : Task) (v i : Nat) : Bool := t.allot.any (fun a => a.1 == v && decide (a.2.1 ≤ i) && decide (i < a.2.1 + a.2.2))

/-- The key of the vault word a 32-bit handle names for a context's task, or the cause. An engine never takes a package handle. -/
def State.handle (s : State) (c : CtxId) (engine : Bool) (h : Nat) : Except Nat Nat :=
  if h / 2 ^ 17 ≠ 0 then .error 0x09
  else if h / 2 ^ 16 = 1 ∧ engine then .error 0x09
  else if h / 2 ^ 16 = 0 ∧ 16384 ≤ h then .error 0x09
  else
    match s.task c with
    | some t =>
      if t.holds (h / 2 ^ 16) (h % 2 ^ 16) then
        .ok (if h / 2 ^ 16 = 1 then pkgWord (h % 2 ^ 16) else dieWord c.die (h % 2 ^ 16))
      else .error 0x06
    | none => .error 0x06

/-- The slot size of a pail from its geometry word (03 R67). -/
def pailSize (geom : Word) : Nat := 2 ^ (wfld geom 32 3 + 9)
/-- The slot count of a pail. -/
def pailCount (geom : Word) : Nat := wfld geom 36 8 + 1
/-- BASE of a pail. -/
def pailBase (geom : Word) : Nat := wfld geom 0 32

/-- The key of the first word of a pail an engine's handle names (03 R68's checks, in their order). -/
def State.pail (s : State) (c : CtxId) (h : Nat) : Except Nat Nat :=
  match s.handle c true h with
  | .error e => .error e
  | .ok k =>
    if h % 4 ≠ 0 then .error 0x0A
    else if semMode (s.word k) ≠ 2 ∨ semMode (s.word (k + 1)) ≠ 3 then .error 0x0A
    else .ok k

/-- The address of the k-th slot ahead of a side's pointer (03 R68): side 0 producer, 1 consumer. -/
def State.pailSlot (s : State) (key side k : Nat) : Nat :=
  let geom := s.word (key + 3)
  pailBase geom + ((wfld (s.word (key + 2)) (8 * side) 8 + k) % pailCount geom) * pailSize geom

/-- Moves a pail's producer (side 0) or consumer pointer by `n`, forwards or back. -/
def State.pailMove (s : State) (key side : Nat) (n : Int) : State :=
  let cnt : Int := pailCount (s.word (key + 3))
  let pos := s.word (key + 2)
  let prod := wfld pos 0 8
  let cons := wfld pos 8 8
  let mv (x : Nat) : Nat := (((x : Int) + n) % cnt).toNat
  s.setWord (key + 2) (BitVec.ofNat 64 (if side = 0 then mv prod + cons * 256 else prod + mv cons * 256))

/-- Adds to the count of a vault word without tests: the applied or undone half of a staged operation. -/
def State.bump (s : State) (key : Nat) (n : Int) : State :=
  s.setWord key (semWithCount (s.word key) (semCount (s.word key) + n))

/-- The at-once half of PailPublish (side 0) or PailRelease (side 1): the decrement and the pointer move (03 R68, R70). -/
def State.pailTake (s : State) (key side n : Nat) : Except Nat State :=
  let from_ := if side = 0 then key + 1 else key
  if n < 1 ∨ (semCount (s.word from_) : Int) < n then .error 0x0A
  else .ok ((s.bump from_ (-n)).pailMove key side n)

/-- Whether a write lies in some slots of a pail, the first of them given (04 R88). -/
def State.inSlots (s : State) (key first n : Nat) (w : Write) : Bool :=
  let geom := s.word (key + 3)
  (List.range n).any (fun i =>
    let lo := pailBase geom + (first + i) % pailCount geom * pailSize geom
    decide (2 ^ 57 ≤ w.block) && decide (lo ≤ 64 * (w.block - 2 ^ 57)) && decide (64 * (w.block - 2 ^ 57) < lo + pailSize geom))

/-- A SemAdd of an agent brings the word of a handle to a new value. It is a release, but that of an engine on a byte barrier publishes nothing (04 R84,
R92). -/
def State.added (s : State) (a : AgentId) (handle key : Nat) (w : Word) : State :=
  let old := s.word key
  let barrier := semMode old == 1
  let s := (if barrier && a.kind != .scu then s else s.signal a key barrier (s.boundTo a handle)).setWord key w
  if barrier && semPhase old != semPhase w then s.flip key a.die else s

/-! ### Waiters in arrival order (03 R65) -/

/-- Whether an agent is first among the decrements waiting on a word. -/
def State.firstWaiter (s : State) (key : Nat) (a : AgentId) : Bool :=
  match s.waiters.find? (fun w => w.1 == key) with
  | some w => w.2.1 == a
  | none => true
/-- Enters an agent's waiting decrement, once. -/
def State.enqueueWaiter (s : State) (key : Nat) (a : AgentId) (n : Nat) : State :=
  if s.waiters.any (fun w => w.1 == key && w.2.1 == a) then s else { s with waiters := s.waiters ++ [(key, a, n)] }
/-- Withdraws an agent's waiting decrements. -/
def State.dropWaiter (s : State) (a : AgentId) : State := { s with waiters := s.waiters.filter (fun w => w.2.1 ≠ a) }

/-! ### Replay counts (16 R361) -/

/-- The key of the replay count of agent kind `i` of a task of die `d`: a word of its set in the replay area (14 R309). -/
def Task.countKey (t : Task) (d i : Nat) : Nat := dieWord d (14336 + 8 * t.set + i)
/-- The replay count of an agent of a task. -/
def State.replayCount (s : State) (a : AgentId) (t : Task) : Nat := (s.word (t.countKey a.die a.kind.num)).toNat

/-- The vault word of a list, or else of an agent's replay count, whose two copies have both failed (03 R72). -/
def State.failedWord (s : State) (a : AgentId) (keys : List Nat) : Option Nat :=
  (keys ++ (match s.task a.ctx with | some t => [t.countKey a.die a.kind.num] | none => [])).find? s.vaultBad.contains

/-- Counts one vault operation of an agent: whether it acts, and the state with its position moved. A context without a task counts
nothing. -/
def State.countOp (s : State) (a : AgentId) : Bool × State :=
  match s.task a.ctx with
  | none => (true, s)
  | some t =>
    let i := a.kind.num
    let p := t.p.getD i 0 + 1
    let live := decide (s.replayCount a t < p)
    let u := s.setTask a.ctx (some { t with p := setNth t.p i p })
    (live, if a.kind = .scu ∧ live then u.setWord (t.countKey a.die i) (BitVec.ofNat 64 p) else u)

/-- Makes an engine's positions final at its mark. -/
def State.commitCounts (s : State) (a : AgentId) : State :=
  match s.task a.ctx with
  | none => s
  | some t =>
    let p := t.p.getD a.kind.num 0
    let s := if s.replayCount a t < p then s.setWord (t.countKey a.die a.kind.num) (BitVec.ofNat 64 p) else s
    s.modStream a (fun x => { x with pMark := p })

/-- The vault words a staged operation touches at its mark. -/
def Staged.keys (d : Nat) : Staged → List Nat
  | .add h _ live | .dec h _ live => if live then [dieWord d h] else []
  | .publish h _ _ live | .release h _ _ live => if live then (List.range 4).map (fun i => dieWord d (h + i)) else []
  | _ => []

/-- Marks the task of a slot unreplayable (16 R362). -/
def State.spoil (s : State) (c : CtxId) : State := s.modTask c (fun t => { t with unreplayable := true })

/-! ### Staging (03 R70) -/

/-- Adds an operation to an engine's staged ones. -/
def State.stage (s : State) (a : AgentId) (o : Staged) : State := s.modStream a (fun x => { x with staged := x.staged ++ [o] })

/-- Changes one stream of the gallery ring. -/
def State.modGallery (s : State) (launch idx : Nat) (f : StreamSt → StreamSt) : State :=
  { s with gallery := s.gallery.map (fun z => if z.launch = launch ∧ z.idx = idx then f z else z) }

/-! ### The slots of a stream (10 R243-R244; log entry 71) -/

/-- The task of a context as a stream's stations know it, whatever core it runs on: its node and its point. -/
def State.whoIs (s : State) (c : CtxId) : Nat × List Nat :=
  match s.task c with
  | some t => (t.node, t.point)
  | none => (0, [])

/-- Whether a slot's claim or pop has been undone and its task may still take it again. -/
def SlotSt.isBack : SlotSt → Bool
  | .back _ _ => true
  | _ => false

/-- Whether an undone pop leaves a slot to any task. -/
def SlotSt.isLoose : SlotSt → Bool
  | .loose => true
  | _ => false

/-- Whether a slot stays at its endpoint only for the order: its mark has come, or its claim is void. -/
def SlotSt.isOver : SlotSt → Bool
  | .done | .void => true
  | _ => false

/-- The slot a task's claim or pop takes: the one that its undone one had, else an open one, else none of those taken before. -/
def retakes (who : Nat × List Nat) (l : List (Nat × SlotSt)) : Option Nat :=
  match l.find? (fun e => e.2 == .back who.1 who.2) with
  | some e => some e.1
  | none => (l.find? (fun e => e.2.isLoose)).map Prod.fst

/-- The slots taken once a task has taken one of them again. -/
def retaken (who : Nat × List Nat) (l : List (Nat × SlotSt)) (k : Nat) : List (Nat × SlotSt) :=
  l.map (fun e => if e.1 = k then (k, SlotSt.taken who.1 who.2) else e)

/-- The slots taken once the mark of one has come. -/
def endSlot (l : List (Nat × SlotSt)) (k : Nat) : List (Nat × SlotSt) := l.map (fun e => if e.1 = k then (k, SlotSt.done) else e)

/-- The slots taken once the claim of one is undone, and by how many the index moves back: past the undone slots that are the last. -/
def undoSlot (l : List (Nat × SlotSt)) (k : Nat) : List (Nat × SlotSt) × Nat :=
  let l' := l.map (fun e => if e.1 = k then (match e.2 with | .taken n p => (k, SlotSt.back n p) | _ => e) else e)
  let n := (l'.reverse.takeWhile (fun e => e.2.isBack)).length
  (l'.take (l'.length - n), n)

/-- The pops of a stream pass the void slots that come next. -/
def StreamSt.passVoids : Nat → StreamSt → StreamSt
  | 0, z => z
  | fuel + 1, z =>
    if z.voids.contains z.cons then
      StreamSt.passVoids fuel { z with voids := z.voids.erase z.cons, pops := z.pops ++ [(z.cons, .void)], cons := (z.cons + 1) % z.count }
    else z

/-- The marks of a stream count in the order of the slots: at each endpoint the slots before the first whose mark is still to come leave it. -/
def StreamSt.settle (z : StreamSt) : StreamSt :=
  let front (l : List (Nat × SlotSt)) : List (Nat × SlotSt) := l.takeWhile (fun (e : Nat × SlotSt) => e.2.isOver)
  let marks (l : List (Nat × SlotSt)) : Nat := ((front l).filter (fun e => e.2 == SlotSt.done)).length
  let y : StreamSt := { z with claims := z.claims.drop (front z.claims).length, filled := z.filled + marks z.claims,
                               voids := z.voids ++ ((front z.claims).filter (fun (e : Nat × SlotSt) => e.2 == SlotSt.void)).map Prod.fst }
  let y := y.passVoids y.voids.length
  { y with pops := y.pops.drop (front y.pops).length, free := y.free + marks y.pops }

/-- Whether a task may claim a slot: its own undone one, or one that is free for any. -/
def StreamSt.mayClaim (z : StreamSt) (who : Nat × List Nat) : Bool :=
  (retakes who z.claims).isSome
    || decide ((z.claims.filter (fun e => e.2.isBack || e.2 == .void)).length + z.voids.length + (z.pops.filter (fun e => e.2 == SlotSt.void)).length < z.free)

/-- Whether a task may pop a slot: its own undone one, an open one, or one that is filled for any. -/
def StreamSt.mayPop (z : StreamSt) (who : Nat × List Nat) : Bool :=
  (retakes who z.pops).isSome || decide ((z.pops.filter (fun e => e.2.isBack || e.2.isLoose)).length < z.filled)

/-- A producer claims a slot. -/
def StreamSt.claim (z : StreamSt) (who : Nat × List Nat) : Nat × StreamSt :=
  match retakes who z.claims with
  | some k => (k, { z with free := z.free - 1, claims := retaken who z.claims k })
  | none => (z.prod, { z with free := z.free - 1, claims := z.claims ++ [(z.prod, .taken who.1 who.2)], prod := (z.prod + 1) % z.count })
/-- A consumer pops a slot. -/
def StreamSt.pop (z : StreamSt) (who : Nat × List Nat) : Nat × StreamSt :=
  match retakes who z.pops with
  | some k => (k, { z with filled := z.filled - 1, pops := retaken who z.pops k })
  | none => (z.cons, StreamSt.settle { z with filled := z.filled - 1, pops := z.pops ++ [(z.cons, .taken who.1 who.2)], cons := (z.cons + 1) % z.count })
/-- The mark of a claim publishes its slot. -/
def StreamSt.publish (z : StreamSt) (k : Nat) : StreamSt := StreamSt.settle { z with claims := endSlot z.claims k }
/-- The mark of a pop gives its slot back. -/
def StreamSt.acknowledge (z : StreamSt) (k : Nat) : StreamSt := StreamSt.settle { z with pops := endSlot z.pops k }
/-- Undoes a claim. -/
def StreamSt.unclaim (z : StreamSt) (k : Nat) : StreamSt :=
  let r := undoSlot z.claims k
  { z with claims := r.1, free := z.free + 1, prod := (z.prod + z.count - r.2) % z.count }
/-- Undoes a pop. -/
def StreamSt.unpop (z : StreamSt) (k : Nat) : StreamSt :=
  let r := undoSlot z.pops k
  { z with pops := r.1, filled := z.filled + 1, cons := (z.cons + z.count - r.2) % z.count }

/-- The producing (or else the consuming) tasks of a stream for which `gone` holds have ended: what they undid and will not do again is void, or
open to others. -/
def StreamSt.forget (z : StreamSt) (src : Bool) (gone : Nat × List Nat → Bool) : StreamSt :=
  let turn (x : SlotSt) (e : Nat × SlotSt) : Nat × SlotSt := match e.2 with | .back n p => if gone (n, p) then (e.1, x) else e | _ => e
  StreamSt.settle (if src then { z with claims := z.claims.map (turn .void) } else { z with pops := z.pops.map (turn .loose) })

/-- The streams of a die lose the slots that its tasks undid and will not take again. -/
def State.forgetSlots (s : State) (d : Nat) : State :=
  let gone (z : StreamSt) (who : Nat × List Nat) : Bool :=
    !(s.die d).insts.any (fun i => i.launch == z.launch && i.node == who.1 && i.point == who.2 && i.status != .ended && i.status != .failed)
  { s with gallery := s.gallery.map (fun z => if z.src = d ∨ z.dst = d then z.forget (z.src == d) (gone z) else z) }

/-- Applies one staged operation at the mark; a fault of its count is the cause and the handle. -/
def State.applyStaged (s : State) (a : AgentId) : Staged → Except (Nat × Nat) State
  | .add h n live =>
    if live then
      match s.handle a.ctx true h with
      | .error e => .error (e, h)
      | .ok k =>
        match semAdd (s.word k) n with
        | .error e => .error (e, h)
        | .ok w => .ok (s.added a h k w)
    else .ok s
  | .dec _ _ _ | .wait _ => .ok s
  | .publish h n i live =>
    let k := dieWord a.die h
    .ok (if live then (s.signal a k false (s.inSlots k i n)).bump k n else s)
  | .release h n i live =>
    let k := dieWord a.die h
    .ok (if live then (s.signal a (k + 1) false (s.inSlots k i n)).bump (k + 1) n else s)
  | .push l i k => .ok (((s.performOwn a).publish a (fun _ => false) (.slot l i k)).modGallery l i (fun z => z.publish k))
  | .pop l i k => .ok (s.modGallery l i (fun z => z.acknowledge k))

/-- Applies staged operations in order; the first that faults decides. -/
def State.applyAll (s : State) (a : AgentId) : List Staged → Except (Nat × Nat) State
  | [] => .ok s
  | o :: t =>
    match s.applyStaged a o with
    | .error e => .error e
    | .ok s' => s'.applyAll a t

/-- Undoes an operation on vault words: one whose two copies have both failed keeps its failure, which the undoing has found (03 R72). -/
def State.undoWords (s : State) (keys : List Nat) (f : State → State) : State :=
  match keys.filter s.vaultBad.contains with
  | [] => f s
  | bad => { s with vaultHit := s.vaultHit ++ bad }

/-- Discards or undoes one staged operation of an agent at a reset (03 R70, 10 R244). -/
def State.undoStaged (s : State) (a : AgentId) : Staged → State
  | .add _ _ _ | .wait _ => s
  | .dec h n live => if live then s.undoWords [dieWord a.die h] (fun s => s.bump (dieWord a.die h) n) else s
  | .publish h n _ live =>
    if live then s.undoWords ((List.range 4).map (fun i => dieWord a.die h + i))
      (fun s => (s.bump (dieWord a.die h + 1) n).pailMove (dieWord a.die h) 0 (-n))
    else s
  | .release h n _ live =>
    if live then s.undoWords ((List.range 4).map (fun i => dieWord a.die h + i))
      (fun s => (s.bump (dieWord a.die h) n).pailMove (dieWord a.die h) 1 (-n))
    else s
  | .push l i k => s.modGallery l i (fun z => z.unclaim k)
  | .pop l i k => s.modGallery l i (fun z => z.unpop k)

/-- Undoes staged operations, the latest first. -/
def State.undoAll (s : State) (a : AgentId) (l : List Staged) : State := l.reverse.foldl (fun s o => s.undoStaged a o) s

end Sys2Proof.Machine
end

