-- ==== Sys2Proof/Machine/Spaces.lean ====
section
/-! DEFINITION. The address spaces (03 R51-R58): translation of VA with its tables, TLBs and parked accesses (15 R323-R329), and the map
of S-space with the task's own tiles. -/

namespace Sys2Proof.Machine

/-! ### Page tables (15 R323-R325) -/

/-- The index bits of a VA at a table level (15 R324). -/
def vaIndex (va lvl : Nat) : Nat :=
  match lvl with
  | 1 => fld va 46 10
  | 2 => fld va 36 10
  | 3 => fld va 26 10
  | _ => fld va 16 10

/-- The page size of a leaf at a level, as a power of two. -/
def pageBits (lvl : Nat) : Nat :=
  match lvl with
  | 2 => 36
  | 3 => 26
  | _ => 16

/-- The malformation test of a valid table entry (15 R325). -/
def pteMalformed (e : Word) (lvl : Nat) : Bool :=
  let leaf := wbit e 1
  let pa := wfld e 13 24 * 2 ^ 13
  wfld e 37 27 != 0 || wfld e 5 8 != 0 || (leaf && lvl == 1) || (!leaf && lvl == 4)
    || (leaf && pa % 2 ^ pageBits lvl != 0) || (!leaf && (wbit e 2 || wbit e 3 || wbit e 4)) || (leaf && wbit e 3 && !wbit e 2)

/-- What a walk ends in: a leaf, a fault KIND (0 not present, 1 malformed, 2 miss under assisted walks; 15 R328), a row under repair, or an
entry with an uncorrectable error (log entry 91). -/
inductive Xlat where
  | leaf (e : Word) (lvl : Nat)
  | absent (kind : Nat)
  | busy
  | bad
deriving DecidableEq, Repr

/-- An 8-byte read of a physical address of a die. -/
def State.readPA (s : State) (d pa : Nat) : Word := BitVec.ofNat 64 (s.rdNat (vatAt d pa) 8)

/-- Whether `n` bytes at a physical address touch the row of 2 KiB a die is repairing, whose accesses wait (18 R395). -/
def State.rowBusy (s : State) (d pa n : Nat) : Bool :=
  let y := s.die d
  y.repairBusy && decide (pa < (y.repairRow + 1) * 2048) && decide (y.repairRow * 2048 < pa + n)

/-- The levels of a walk below a table (15 R325). -/
def State.walkFrom (s : State) (d va : Nat) : List Nat → Nat → Xlat
  | [], _ => .absent 1
  | lvl :: t, table =>
    let e := s.readPA d (table + vaIndex va lvl * 8)
    if s.rowBusy d (table + vaIndex va lvl * 8) 8 then .busy
    else if s.ecc.contains (vatAt d (table + vaIndex va lvl * 8)) then .bad
    else if !wbit e 0 then .absent 0
    else if pteMalformed e lvl then .absent 1
    else if wbit e 1 then .leaf e lvl
    else s.walkFrom d va t (wfld e 13 24 * 2 ^ 13)

/-- Walk (15 R325); with ATBASE not enabled nothing is present (log entry 11). -/
def State.walk (s : State) (d asid va : Nat) : Xlat :=
  let at_ := s.fab d 0
  if !wbit at_ 0 then .absent 0
  else
    let root := wfld at_ 19 18 * 2 ^ 19 + asid * 8
    let r := s.readPA d root
    if s.rowBusy d root 8 then .busy
    else if s.ecc.contains (vatAt d root) then .bad
    else if !wbit r 0 then .absent 0 else s.walkFrom d va [1, 2, 3, 4] (wfld r 13 24 * 2 ^ 13)

/-- Whether a cached leaf serves an address of an ASID (15 R326). -/
def TlbLeaf.covers (t : TlbLeaf) (asid va : Nat) : Bool :=
  (t.asid == asid || wbit t.leaf 4) && t.va / 2 ^ pageBits t.level == va / 2 ^ pageBits t.level

/-- Enters a leaf into the die TLB of 16,384 entries and, for an engine, its micro-TLB of 64. -/
def State.cacheLeaf (s : State) (c : CoreId) (k : AgentKind) (t : TlbLeaf) : State :=
  let s := s.modDie c.die (fun d => { d with tlb := (t :: d.tlb).take 16384 })
  if k = .scu then s
  else
    s.modCore c (fun x =>
      { x with utlb := (k.num, t) :: (x.utlb.filter (fun e => e.1 == k.num)).take 63 ++ x.utlb.filter (fun e => e.1 != k.num) })

/-- The cached leaf an access may use: an engine's own, else the die's. -/
def State.cachedLeaf (s : State) (c : CoreId) (k : AgentKind) (asid va : Nat) : Option TlbLeaf :=
  match (s.core c).utlb.find? (fun e => e.1 == k.num && e.2.covers asid va) with
  | some e => some e.2
  | none => (s.die c.die).tlb.find? (fun t => t.covers asid va)

/-- Translates one address. A cached leaf may have been replaced, which is a free choice (log entry 12); without one the walkers walk, or
under DUTY bit 6 the miss is the Curator's (15 R329). -/
def State.xlate (s : State) (c : CoreId) (k : AgentKind) (asid va : Nat) : Xlat × State :=
  let fresh (s : State) : Xlat × State :=
    if s.duty.testBit 6 then (.absent 2, s)
    else
      match s.walk c.die asid va with
      | .leaf e l => (.leaf e l, s.cacheLeaf c k ⟨asid, va, l, e⟩)
      | r => (r, s)
  match s.cachedLeaf c k asid va with
  | some t => if Config.freeBit s.freeCtr then (.leaf t.leaf t.level, s.tick) else fresh s.tick
  | none => fresh s

/-- The physical address a leaf gives an address. -/
def leafPA (e : Word) (lvl va : Nat) : Nat := wfld e 13 24 * 2 ^ 13 + va % 2 ^ pageBits lvl

/-- What a VA range becomes: the global address of each byte, a fault (cause and address) of permission or of the walk, an absent page
(address and KIND), or a wait for a row under repair. -/
inductive MapRes where
  | ok (addrs : List Nat) (s : State)
  | fault (cause va : Nat) (s : State)
  | absent (va kind : Nat) (s : State)
  | busy (s : State)

/-- Translates a VA range page by page, `fuel` pages at most. -/
def State.mapPages (s : State) (c : CoreId) (k : AgentKind) (asid : Nat) (r w : Bool) : Nat → Nat → Nat → List Nat → MapRes
  | 0, _, _, acc => .ok acc s
  | fuel + 1, va, n, acc =>
    if n = 0 then .ok acc s
    else
      match s.xlate c k asid va with
      | (.absent kind, s') => .absent va kind s'
      | (.busy, s') => .busy s'
      | (.bad, s') => .fault 0x08 va s'
      | (.leaf e lvl, s') =>
        if (r && !wbit e 2) || (w && !wbit e 3) then .fault 0x06 va s'
        else
          let m := min n (65536 - va % 65536)
          if s'.rowBusy c.die (leafPA e lvl va) m then .busy s'
          else s'.mapPages c k asid r w fuel (va + m) (n - m) (acc ++ rangeFrom (vatAt c.die (leafPA e lvl va)) m)

/-- Translates the VA range of `n` bytes for an access that needs the given rights. -/
def State.mapVA (s : State) (c : CoreId) (k : AgentKind) (asid va n : Nat) (r w : Bool) : MapRes :=
  s.mapPages c k asid r w (n / 65536 + 2) va n []

/-- The place of a VA byte as its page gives it now, if its page is there. -/
def State.placeOf (s : State) (c : CoreId) (k : AgentKind) (asid va : Nat) : Option Nat :=
  match s.cachedLeaf c k asid va with
  | some t => some (vatAt c.die (leafPA t.leaf t.level va))
  | none =>
    match s.walk c.die asid va with
    | .leaf e l => some (vatAt c.die (leafPA e l va))
    | _ => none

/-- The places of a VA range, page by page, as first place and length; a page that is not there has none. -/
def State.placesOf (s : State) (c : CoreId) (k : AgentKind) (asid : Nat) : Nat → Nat → Nat → List (Nat × Nat)
  | 0, _, _ => []
  | fuel + 1, va, n =>
    if n = 0 then []
    else
      let m := min n (65536 - va % 65536)
      (match s.placeOf c k asid va with | some p => [(p, m)] | none => []) ++ s.placesOf c k asid fuel (va + m) (n - m)

/-! ### Parked accesses (15 R327-R328) -/

/-- The AGENT, SLOT and CORE of a fault ring entry (15 R328). -/
def ParkOwner.fields : ParkOwner → Nat × Nat × Nat
  | .scu c | .copy c _ => (0, c.ctx, c.core)
  | .engine a _ => (a.kind.num, a.slot, a.core)
  | .cellar c _ x => (2, x, c.core)
  | .registrar => (5, 4, 0)
  | .image c => (6, 4, c.core)

/-- Posts the oldest parked accesses the ring has room for: entry SEQ mod 256 of the ring at FQBASE (15 R328; log entry 13). -/
def State.postOne (s : State) (d : Nat) (e : ParkEntry) : State :=
  let x := s.die d
  let idx := x.ringSeq % 256
  if x.parked.any (fun p => p.index == some idx) then s
  else
    let f := e.owner.fields
    let w1 := (if e.wr then 2 ^ 34 else 0) + e.kind * 2 ^ 32 + f.1 * 2 ^ 29 + f.2.1 * 2 ^ 26 + f.2.2 * 2 ^ 20 + d * 2 ^ 16 + e.asid
    let s := s.storeAt (supAt (wfld (s.fab d 0x20) 13 51 * 2 ^ 13 + idx * 32))
      (natLe 8 e.va ++ natLe 8 w1 ++ natLe 8 x.ringSeq ++ natLe 8 0)
    let mark (l : List ParkEntry) : List ParkEntry :=
      l.map (fun p => if p = e then { p with index := some idx } else p)
    (s.modDie d (fun y => { y with parked := mark y.parked, ringSeq := y.ringSeq + 1 })).send .irqSupervisor

/-- Posts every parked access of a die that has no ring entry yet, as far as the ring has room. -/
def State.postParked (s : State) (d : Nat) : State :=
  ((s.die d).parked.filter (fun p => p.index.isNone)).foldl (fun s e => s.postOne d e) s

/-- Parks an access behind an absent page and posts it (15 R327). -/
def State.park (s : State) (d va asid kind : Nat) (wr : Bool) (owner : ParkOwner) : State :=
  (s.modDie d (fun y => { y with parked := y.parked ++ [⟨va, asid, kind, wr, owner, none⟩] })).postParked d

/-- Abandons the parked accesses of an owner. -/
def State.unpark (s : State) (d : Nat) (f : ParkOwner → Bool) : State :=
  s.modDie d (fun y => { y with parked := y.parked.filter (fun p => !f p.owner) })

/-! ### S-space (03 R54) -/

/-- What a range of S-space lies in. -/
inductive SLoc where
  | scratch
  | icb (q off : Nat)
  | tile (t off : Nat)
  | window (w off : Nat)
  | hole
deriving DecidableEq, Repr

/-- Where the `n` bytes from `a` lie: a populated slice range, a control block, tiles, loan windows; anything else touches a hole. -/
def sLoc (a n : Nat) : SLoc :=
  if a < 0x08000000 then (if a % 0x200000 + n ≤ 0x180000 then .scratch else .hole)
  else if 0x0C000000 ≤ a ∧ a + n ≤ 0x0C001000 then .icb ((a - 0x0C000000) / 64) (a % 64)
  else if 0x10000000 ≤ a ∧ a + n ≤ 0x10100000 then .tile ((a - 0x10000000) / 65536) (a % 65536)
  else if 0x80000000 ≤ a ∧ a + n ≤ 0x100000000 then .window ((a - 0x80000000) / 0x08000000) (a % 0x08000000)
  else .hole

/-- Whether a range touches a docent area (13 R271). -/
def inDocentArea (a n : Nat) : Bool := decide (a < 0x08000000 ∧ 0x17F000 < a % 0x200000 + n)

/-- The position of a task's logical tile in the accumulator store (03 R56, 17 R385). -/
def State.tilePos (s : State) (c : CtxId) (t : Nat) : Nat :=
  match (s.core c.coreId).tileMap.find? (fun e => e.1 == c.ctx && e.2.1 == t) with
  | some e => e.2.2
  | none => t

/-- Whether a logical tile's position is in an exchange under way, which every access to the tile waits for (17 R385). -/
def State.exchanging (s : State) (c : CtxId) (t : Nat) : Bool :=
  (s.core c.coreId).exchanges.any (fun x => s.tilePos c t == x.1 || s.tilePos c t == x.2)

/-- The number of tiles a task holds. -/
def State.tileCount (s : State) (c : CtxId) : Nat :=
  match s.task c with
  | some t => t.tiles
  | none => 0

/-- Whether a logical tile is ME-owned (03 R58). -/
def State.owned (s : State) (c : CtxId) (t : Nat) : Bool := (s.me c).owned.any (fun o => o.1 == t)

/-- The tiles that the `n` bytes from alias address `a` touch. -/
def tilesOf (a n : Nat) : List Nat :=
  let lo := (a - 0x10000000) / 65536
  rangeFrom lo ((a - 0x10000000 + n - 1) / 65536 + 1 - lo)

/-- The global address of an alias byte. -/
def State.tileByte (s : State) (c : CtxId) (a : Nat) : Nat :=
  tileAt c.coreId (s.tilePos c ((a - 0x10000000) / 65536)) (a % 65536)

/-- The global addresses of `n` bytes of local S-space. -/
def State.sAddrs (s : State) (c : CtxId) (a n : Nat) : List Nat :=
  if a < 0x08000000 then rangeFrom (scratchAt c.die a) n else (rangeFrom a n).map (s.tileByte c)

/-- The checks of a tile alias range by an agent other than the VE: tiles above the count, then ME-owned ones (03 R56, R58; 16 R408). -/
def State.tileCheck (s : State) (c : CtxId) (a n : Nat) : Except (Nat × Word) Unit :=
  match (tilesOf a n).find? (fun t => s.tileCount c ≤ t) with
  | some t => .error (0x06, BitVec.ofNat 64 t)
  | none => if (tilesOf a n).any (s.owned c) then .error (0x06, BitVec.ofNat 64 a) else .ok ()

end Sys2Proof.Machine
end

