-- ==== Sys2Proof/Machine/Streams.lean ====
section
/-! DEFINITION. Command records (05 R107-R109), the nest of a command, the start of a pass, and the stochastic-rounding generator's
reseeding (02 R40). -/

namespace Sys2Proof.Machine

/-! ### Record images (05 R107) -/

/-- A field of a record image. -/
def img (b : List Byte) (off n : Nat) : Nat := leNat ((b.drop off).take n)

/-- The record a 256-byte image holds, with its progress area zeroed (05 R108). -/
def recOf (b : List Byte) (va : Nat) : Rec where
  iaddr := fld (img b 0 4) 0 14
  bcnt := fld (img b 0 4) 16 8
  mlvl := fld (img b 0 4) 24 3
  clvl := fld (img b 0 4) 28 3
  fov := (img b 4 4).testBit 9
  bbv := (img b 4 4).testBit 8
  engine := fld (img b 4 4) 4 2
  cbase := fld (img b 4 4) 0 4
  bound := (List.range 6).map (fun l => img b (8 + 2 * l) 2 + 1)
  a := (List.range 4).map (fun k => BitVec.ofNat 64 (img b (0x20 + 8 * k) 8))
  stride := (List.range 24).map (fun k => signed 32 (img b (0x40 + 4 * k) 4))
  h := (List.range 4).map (fun k => img b (0xA0 + 4 * k) 4)
  e := (List.range 8).map (fun k => img b (0xB0 + 4 * k) 4)
  bbar := img b 0xD0 4
  follow := img b 0xD8 8
  k := (List.range 4).map (fun k => img b (0xE0 + 4 * k) 4)
  va := va
  acc := 0
  mi := List.replicate 6 0

/-- The check of a record image against the engine it is enqueued on (05 R108). -/
def recLegal (b : List Byte) (engine : Nat) : Bool :=
  let r := recOf b 0
  r.engine == engine && r.bcnt != 0 && r.mlvl != 6 && decide (r.clvl ≤ 5) && (!r.fov || engine == 2) && (!r.bbv || engine != 0)
    && fld (img b 0 4) 31 1 == 0 && fld (img b 0 4) 27 1 == 0 && fld (img b 0 4) 14 2 == 0
    && fld (img b 4 4) 10 22 == 0 && fld (img b 4 4) 6 2 == 0 && img b 0x14 12 == 0 && img b 0xD4 4 == 0
    && (!r.fov || r.follow % 256 == 0)

/-! ### The nest (01 R21, 05 R109) -/

/-- The next point of a nest with level 0 fastest; none after the last. -/
def nestNext : List Nat → List Nat → Option (List Nat)
  | i :: is, b :: bs =>
    if i + 1 < b then some ((i + 1) :: is)
    else
      match nestNext is bs with
      | some t => some (0 :: t)
      | none => none
  | _, _ => none

/-- Whether a pass ends an iteration of a mark level: every faster level, and the mark level's own inner levels, stand at their last
index (05 R105). -/
def endsLevel (mlvl : Nat) (idx bound : List Nat) : Bool :=
  decide (mlvl ≤ 5) && (List.range mlvl).all (fun l => idx.getD l 0 + 1 == bound.getD l 1)

/-- Whether a pass is the command's last. -/
def isLast (idx bound : List Nat) : Bool := (List.range 6).all (fun l => idx.getD l 0 + 1 == bound.getD l 1)

/-- The address registers of a pass (05 R109). -/
def passRegs (r : Rec) (idx : List Nat) : Vector Word 16 :=
  tabulate 16 (fun k =>
    if k < 4 then
      wordOfInt ((r.a.getD k 0).toNat + ((List.range 6).map (fun l => (idx.getD l 0 : Int) * r.stride.getD (6 * k + l) 0)).foldl (· + ·) 0)
    else if k < 8 then BitVec.ofNat 64 (r.k.getD (k - 4) 0)
    else 0)

/-- The catalogue row of a pass (05 R109). -/
def passRow (r : Rec) (idx : List Nat) : Nat := (r.cbase + idx.getD r.clvl 0) % 16

/-- The current record of a stream. -/
def Stream.current (x : Stream) : Option Rec := if x.active then x.queue.head? else none

/-- A stream at the start of a block pass at given indices (05 R104, R109). -/
def Stream.beginPass (x : Stream) (r : Rec) (idx : List Nat) : Stream :=
  { x with idx := idx, a := passRegs r idx, epc := r.iaddr, inBody := false, blocks := 0, atEnd := false, markAsked := false,
           wait := .none }

/-- Where a command starts or resumes from its progress area (05 R108): the point after the last mark, or the first. -/
def Rec.resume (r : Rec) : Option (List Nat) := if r.acc = 0 then some (List.replicate 6 0) else nestNext r.mi r.bound

/-! ### Stochastic rounding (02 R40) -/

/-- The reseeded generator word of byte position `b`. -/
def srSeedWord (seed acc b : Nat) : BitVec 32 :=
  let s := (BitVec.ofNat 32 seed) ^^^ (BitVec.ofNat 32 (b * 0x9E3779B9)) ^^^ (BitVec.ofNat 32 (acc * 0x85EBCA6B))
  if s = 0 then 1 else s

/-- SRReseed of every byte position. -/
def Ve.reseed (v : Ve) (acc : Nat) : Ve := { v with srSeed := v.cfg.seed, srAcc := acc, sr := [] }

/-- SRStep: the drawn number and the generators after it. -/
def Ve.srStep (v : Ve) (b : Nat) : BitVec 32 × Ve :=
  let x := Table.get (srSeedWord v.srSeed v.srAcc b) v.sr b
  let x := x ^^^ (x <<< 13)
  let x := x ^^^ (x >>> 17)
  let x := x ^^^ (x <<< 5)
  (x, { v with sr := Table.put v.sr b x })

/-- A VE stream's predicates: p15 is all true (01 R12). -/
def Ve.pred (v : Ve) (i : Nat) : BitVec 256 := if i = 15 then BitVec.allOnes 256 else v.p.getD i 0

/-- The VE configuration as the 64-bit layout of 08 R203. -/
def VeCfg.word (c : VeCfg) : Nat :=
  c.seed * 2 ^ 32 + c.flags * 2 ^ 9 + c.en * 2 ^ 4 + (if c.ftz then 8 else 0) + c.mode

end Sys2Proof.Machine
end

