-- ==== Sys2Proof/Machine/Ops.lean ====
section
/-! DEFINITION. The shared operations: taking a trap (13 R281-R284, 16 R353-R354), returning from one (13 R286-R287), discarding an
engine's interval (16 R348), and the resets of slots, cores and dies (16 R360-R364). -/

namespace Sys2Proof.Machine

/-! ### Trap registers (13 R278-R279) -/

/-- TPC of a context that stops where it stands: its index and pending transfer (13 R278). Index 16,384 reads as 0x3FFF,
which 05 R100 says of its own trap, and the model of every other (log entry 113). -/
def Ctx.resumePoint (x : Ctx) : Word :=
  let pc := min x.pc 0x3FFF
  match x.xfer with
  | some f => BitVec.ofNat 64 (f.tgt * 2 ^ 18 + f.left * 2 ^ 16 + (if f.taken then 2 ^ 15 else 0) + 2 ^ 14 + pc)
  | none => BitVec.ofNat 64 pc

/-- TSTAT of context `slot` as read (13 R279): a task's copy names its own slot. -/
def Ctx.tstat (x : Ctx) (slot : Nat) : Word :=
  BitVec.ofNat 64 ((if slot < 4 then slot else x.slotn) * 2 ^ 12 + x.src * 2 ^ 8 + x.depth * 2 ^ 4 + (if x.wopen then 1 else 0))

/-- The S-space address of the condition report of a context (13 R271). -/
def reportAddr (c : CtxId) : Nat := c.core * 0x200000 + 0x17F000 + c.ctx * 0x100

/-! ### The allowances of windows and groups (03 R60) -/

/-- The Curator address of group `g`'s descriptor on a die. -/
def groupReg (d g : Nat) : Nat := 0x4300000000 + d * 0x100000 + 0x30000 + 256 * g
/-- The first word of a group descriptor. -/
def State.groupWord (s : State) (d g : Nat) : Word := s.reg (groupReg d g)

/-- The allowance of a window, or of group `win - 16`, on a core (03 R60, 10 R248). -/
def State.limitOf (s : State) (c : CoreId) (win : Nat) : Nat :=
  if win < 16 then (s.core c).lwallow.getD win 1024 else wfld (s.groupWord c.die (win - 16)) 0 11

/-- The posted writes of a core outstanding through a window, or through group `win - 16`. -/
def State.postedCount (s : State) (c : CoreId) (win : Nat) : Nat := ((s.core c).posted.filter (fun p => p.win == win)).length

/-- The window, or 16 + group, whose allowance holds a posted write of an engine's slot: the first of its pieces that it has not sent. -/
def State.allowanceHeld (s : State) (a : AgentId) : Option Nat :=
  let ps : List Piece := match a.kind with
    | .ve => ((s.ve a.ctx).pend.filter (fun x => !x.load)).flatMap (fun x => x.pieces)
    | .xe => ((s.stream a).transfers.filter (fun t => t.begun)).flatMap (fun t => t.pieces)
    | _ => []
  (ps.head?.map (fun p => p.win)).filter (fun w => decide (s.limitOf a.coreId w < s.postedCount a.coreId w + 1))

/-! ### The condition report (16 R354) -/

/-- STATE of an engine block of the report; `behind` says that an access of the slot is parked on a translation, `allow` names the window whose
allowance holds it. -/
def Stream.reportState (x : Stream) (held stopped behind : Bool) (allow : Option Nat) : Nat :=
  if !x.active then 0
  else if x.faulting then 8
  else if x.atMark && held then 7
  else if x.atMark && stopped then 9
  else if behind then 5
  else
    match x.wait with
    | .none => if allow.isSome then 10 else 1
    | .vault _ => 2
    | .pail _ => 3
    | .stream _ => 4
    | .parked => 5
    | .interlock => 6
    | .counter _ => 10
    | .queueFull => 10

/-- WIDX of an engine block of the report; for an allowance the window's or group's number (log entry 108). -/
def Stream.reportWidx (x : Stream) (allow : Option Nat) : Nat :=
  match x.wait with
  | .vault i | .pail i | .stream i | .counter i => i % 32
  | .none => (match allow with | some w => (if w < 16 then w else w - 16) % 32 | none => 0)
  | _ => 0

/-- Packs halfwords into one word. -/
def halves (l : List Nat) : Nat := l.foldr (fun h acc => h % 65536 + 65536 * acc) 0

/-- The four words of an engine block of the report. -/
def Stream.reportBlock (x : Stream) (held stopped behind : Bool) (allow : Option Nat) : List Nat :=
  let r := x.current
  [ (if x.active then x.epc % 16384 else 0) * 2 ^ 32 + (if x.staged.isEmpty then 0 else 2 ^ 9) + x.reportWidx allow * 16 + x.reportState held stopped behind allow,
    min x.queue.length 64 * 2 ^ 32 + x.retired % 2 ^ 32,
    halves ((if x.active then x.idx else []).take 4),
    halves ((if x.active then x.idx else []).drop 4) + (match r with | some q => q.acc % 2 ^ 32 * 2 ^ 32 | none => 0) ]

/-- Whether an agent of a slot waits behind a translation: its stream, a VE access, a transfer, or for the ME the fetch of a cellar entry that the
slot asked for (15 R327). -/
def State.behindWalk (s : State) (a : AgentId) : Bool :=
  (s.die a.die).parked.any (fun p => match p.owner with
    | .engine b _ => b == a
    | .cellar c _ slot => a.kind == .me && c == a.coreId && slot == a.slot
    | _ => false)

/-- One churn entry of the report. -/
def Pass.reportWord (p : Pass) : Nat :=
  2 ^ 31 + (if p.withdrawn then 3 else if p.failed then 2 else if p.ready then 1 else 0) * 2 ^ 29 + p.tile * 2 ^ 25 + p.base / 8 * 2 ^ 21 + (p.rows - 1) * 2 ^ 14
    + p.cls * 2 ^ 12

/-- Pairs 32-bit entries into 64-bit words. -/
def pairWords : List Nat → List Nat
  | a :: b :: t => (a + b * 2 ^ 32) :: pairWords t
  | [a] => [a]
  | [] => []

/-- LATE: up to four later traps, oldest lowest (16 R354). -/
def lateWord (l : List Nat) : Nat := halves (l.take 4)

/-- The 32 words of the condition report of a context. -/
def State.reportWords (s : State) (c : CtxId) (src cause : Nat) (v : Word) (seq later : Nat) (late : List Nat) (abnd : Bool) :
    List Nat :=
  let x := s.ctx c
  let ve := s.ve c
  let me := s.me c
  let held := decide (7 ≤ s.depthOf c.die)
  let stopped := match s.task c with | some t => t.preempting || t.preempted | none => false
  let churn := (((s.core c.coreId).passes.filter (fun p => p.slot == c.ctx && p.member)).map Pass.reportWord).take 16
  [ seq % 2 ^ 32 * 2 ^ 32 + min later 15 * 2 ^ 20 + 2 ^ 15 + c.ctx * 2 ^ 12 + src * 2 ^ 8 + cause, v.toNat, (s.cycleOf c.coreId).toNat,
    x.votes.length * 2 ^ 32 + (if x.xfer.isSome then 2 ^ 15 else 0) + (if abnd then 2 ^ 14 else 0) + min x.pc 0x3FFF,
    (if c.ctx = 4 then 0 else ve.cfg.word),
    (if c.ctx = 4 then 0 else me.depth % 65536 * 2 ^ 16 + (me.owned.map (fun o => 2 ^ o.1)).foldl (· + ·) 0),
    lateWord late, 0 ]
  ++ (if c.ctx = 4 then List.replicate 16 0
      else (engineKinds.map (fun k =>
        let a := c.agent k
        let rolls := (s.core c.coreId).rolling.getD (k.num - 1) false
        (s.stream a).reportBlock held (stopped || rolls) (s.behindWalk a) (s.allowanceHeld a))).flatten)
  ++ pairWords (churn ++ List.replicate (16 - churn.length) 0)

/-- Writes the condition report of a context into its docent area. -/
def State.writeReport (s : State) (c : CtxId) (src cause : Nat) (v : Word) (seq later : Nat) (late : List Nat) (abnd : Bool) : State :=
  s.storeAt (scratchAt c.die (reportAddr c)) ((s.reportWords c src cause v seq later late abnd).map (natLe 8)).flatten

/-! ### Posting to the Curator (13 R283, R409) -/

/-- Whether the supervisor trap queue is full; before TQBASE is first written it counts as full (13 R409). -/
def Curator.supFull (q : Curator) : Bool := !q.tqSet || (q.tqwr + 2 ^ 32 - q.tqrd) % 2 ^ 32 == 4096
/-- Whether the monitor trap queue is full. -/
def Curator.monFull (q : Curator) : Bool := (q.mqwr + 2 ^ 32 - q.mqrd) % 2 ^ 32 == 256

/-- The fields of a trap-queue entry (13 R283). -/
structure TrapEntry where
  cause : Nat
  tval : Word
  trep : Nat
  die : Nat
  core : Nat
  slot : Nat
  src : Nat
  tpc : Word

/-- The 24 bytes of a trap-queue entry before its sequence number. -/
def TrapEntry.words (e : TrapEntry) : List Word :=
  [ e.tval, BitVec.ofNat 64 (e.trep + e.cause * 2 ^ 32 + e.die * 2 ^ 40 + e.core * 2 ^ 44 + e.slot * 2 ^ 50 + e.src * 2 ^ 53), e.tpc ]

/-- The bytes of an entry with its sequence number. -/
def entryBytes (ws : List Word) (seq : Nat) : List Byte := (ws.map (fun w => natLe 8 w.toNat)).flatten ++ natLe 8 seq

/-- Enters an entry's words into the supervisor queue, or the monitor queue when it must or the first is full, or holds it at its core
(13 R283). -/
def State.postWords (s : State) (toMonitor : Bool) (core : Nat × Nat) (ws : List Word) : State :=
  let q := s.cur
  if !toMonitor && !q.supFull then
    (({ s with cur := { q with tqwr := (q.tqwr + 1) % 2 ^ 32 } } : State).storeAt (supAt (q.tqbase + q.tqwr % 4096 * 32))
      (entryBytes ws q.tqwr)).send .irqSupervisor
  else if !q.monFull then
    (({ s with cur := { q with mqwr := (q.mqwr + 1) % 2 ^ 32 } } : State).storeAt (supAt (q.mqbase + q.mqwr % 256 * 32))
      (entryBytes ws q.mqwr)).send .irqMonitor
  else { s with cur := { q with held := q.held ++ [(core.1, core.2, ws)] } }

/-- Posts a trap to the Curator (13 R283): cause 0x12 is the monitor's. -/
def State.post (s : State) (e : TrapEntry) : State := s.postWords (e.cause == 0x12) (e.die, e.core) e.words

/-! ### Delivery (13 R281) -/

/-- Abandons a blocking instruction that a context has outstanding, which has no effect (06 R133); an access that has issued and is parked on a
translation goes on to its end (13 R282). -/
def Ctx.interrupt (x : Ctx) : Ctx := { x with blocked := false, wd := 0, remote := none, yielded := false, cmdTarget := none }

/-- Abandons what a context has outstanding. -/
def Ctx.abandon (x : Ctx) : Ctx :=
  { x.interrupt with parked := .no, pend := none }

/-- Enter (13 R281): context `x` starts its handler for a trap of context `c`; what it waits for behind a translation is abandoned. -/
def State.enter (s : State) (x c : CtxId) (src cause : Nat) (v : Word) : State :=
  (s.unpark x.die (fun o => o == .scu x)).modCtx x (fun k =>
    { k.abandon with tpc := k.resumePoint, tcause := cause, tval := v, trep := reportAddr c, src := src, slotn := c.ctx,
                     depth := k.depth + 1, wopen := false, pc := k.tvec, xfer := none, park := false })

/-- Whether a trap of a context is bound for the docent (13 R281); one that waits to enter it has closed its window. -/
def State.docentTakes (s : State) (c : CtxId) (cause : Nat) : Bool :=
  let d := s.ctx ⟨c.die, c.core, 4⟩
  (c.ctx == 4 || wbit (s.core c.coreId).tdlg (32 + cause)) && d.wopen && decide (d.depth < 15) && d.pend.isNone

/-- Enter at the boundary of a context: at once, or when the access it has issued has ended (13 R282). -/
def State.enterAt (s : State) (x c : CtxId) (src cause : Nat) (v : Word) : State :=
  if (s.ctx x).parked = .no then s.enter x c src cause v
  else s.modCtx x (fun k => { k with pend := some ⟨c, src, cause, v⟩ })

/-- The last steps of Deliver (13 R281): the docent, or the Curator. -/
def State.deliverUp (s : State) (c : CtxId) (src cause : Nat) (v : Word) : State :=
  if s.docentTakes c cause then s.enterAt ⟨c.die, c.core, 4⟩ c src cause v
  else s.post ⟨cause, v, reportAddr c, c.die, c.core, c.ctx, src, (s.ctx c).resumePoint⟩

/-- Deliver (13 R281): the task's own handler, the docent, or the Curator. A trap bound for a docent being updated is held at its core
(18 R393). -/
def State.deliver (s : State) (c : CtxId) (src cause : Nat) (v : Word) : State :=
  let x := s.ctx c
  let k := s.core c.coreId
  if decide (c.ctx < 4) && wbit k.tdlg cause && x.wopen && decide (x.depth < 15) then
    (s.modTask c (fun t => { t with inHandler := true })).enter c c src cause v
  else
    let s := if c.ctx < 4 then
        s.modCtx c (fun y => { y with tpc := y.resumePoint, tcause := cause, tval := v, trep := reportAddr c, src := src })
      else s
    if c.ctx < 4 && k.docBusy && (s.ctx ⟨c.die, c.core, 4⟩).park && s.docentTakes c cause then s.modCore c.coreId (fun y => { y with docHeld := y.docHeld ++ [(c.ctx, cause, v, src)] })
    else s.deliverUp c src cause v

/-! ### The first fault (16 R353) -/

/-- Withdraws what a task's agents wait for at the vault. -/
def State.dropWaits (s : State) (c : CtxId) : State := (AgentKind.scu :: engineKinds).foldl (fun s k => s.dropWaiter (c.agent k)) s

/-- Withdraws what a task's agents wait for at the vault, and the SCU context's outstanding instruction. -/
def State.quiesce (s : State) (c : CtxId) : State :=
  let s := s.dropWaits c
  let s := s.unpark c.die (fun o => o == .scu c)
  s.modCtx c Ctx.abandon

/-- Discards an engine's interval: staged operations discarded or undone, counts back to the mark (03 R70, 16 R361). -/
def State.dropStaged (s : State) (a : AgentId) : State :=
  let x := s.stream a
  let s := s.undoAll a x.staged
  let s := s.modTask a.ctx (fun t => { t with p := setNth t.p a.kind.num x.pMark })
  s.modStream a (fun y => { y with staged := [], counted := y.countedMark, armed := y.armedMark })

/-- Records a trap that arrives while the task is frozen (16 R353-R354). -/
def State.recordLater (s : State) (c : CtxId) (src cause : Nat) : State :=
  match s.task c with
  | none => s
  | some t =>
    let late := if t.later.length < 4 then t.later ++ [src * 256 + cause] else t.later
    let n := min (t.laterCount + 1) 15
    let s := s.setTask c (some { t with later := late, laterCount := n })
    let at_ := scratchAt c.die (reportAddr c)
    let w0 := s.rdNat at_ 8
    (s.storeAt at_ (natLe 8 (w0 - fld w0 20 4 * 2 ^ 20 + n * 2 ^ 20))).storeAt (at_ + 0x30) (natLe 8 (lateWord late))

/-- Withdraws the churn members of a slot whose stacks are not ready (09 R230). -/
def State.withdraw (s : State) (c : CtxId) : State :=
  s.modCore c.coreId (fun k => { k with passes := k.passes.map (fun p =>
    if p.slot = c.ctx ∧ p.member ∧ !p.ready then { p with withdrawn := true } else p) })

/-- Gives withdrawn members of a slot that resumes in place to the array, each alone (log entry 14: timing only). -/
def State.readmit (s : State) (c : CtxId) : State :=
  s.modCore c.coreId (fun k => { k with passes := k.passes.map (fun p =>
    if p.slot = c.ctx ∧ p.withdrawn then { p with withdrawn := false, ready := true, readyAt := s.unitCycles c.coreId 2, stack := p.id } else p) })

/-- Freezes a task at its first fault and writes its condition report. Its context's own fault ends what it waits for; at another's an access that
it has issued goes on (13 R282). A pre-emption request under way is dropped and recorded
(16 R358). -/
def State.freeze (s : State) (c : CtxId) (src cause : Nat) (v : Word) : State :=
  match s.task c with
  | none => s
  | some t =>
    let abnd := (s.ctx c).blocked
    let s := (if src = 0 then s.quiesce c else (s.dropWaits c).modCtx c Ctx.interrupt).withdraw c
    let s := if 1 ≤ src ∧ src ≤ 4 ∧ cause ≠ 0x0C then s.dropStaged (c.agent (engineKind (src - 1))) else s
    let s := if 1 ≤ src ∧ src ≤ 4 then s.modStream (c.agent (engineKind (src - 1))) (fun x => { x with faulting := true }) else s
    let late := if t.preempting && cause != 0x11 then [0x511] else []
    let s := s.modTask c (fun t => { t with frozen := true, inHandler := false, frozenSrc := src, frozenCause := cause, frozenAt := s.cycle,
                                            later := late, laterCount := late.length, abandoned := abnd })
    (s.writeReport c src cause v t.launch late.length late abnd).modTask c (fun t => { t with preempting := false })

/-- A trap of a task that its context's issued access may precede: it waits for the end of that access (13 R282). -/
def State.deliverAt (s : State) (c : CtxId) (src cause : Nat) (v : Word) : State :=
  if (s.ctx c).parked = .no then s.deliver c src cause v
  else s.modCtx c (fun k => { k with pend := some ⟨c, src, cause, v⟩ })

/-- A fault of an access that an agent's trap waits for: it is delivered instead, and the other is recorded only in the report (13 R282). The
task's engines are released as after the trap that froze it (log entry 94). -/
def State.trapEarlier (s : State) (c : CtxId) (p : PendTrap) (cause : Nat) (v : Word) : State :=
  match s.task c with
  | none => s
  | some t =>
    let late := ((p.src * 256 + p.cause) :: t.later).take 4
    let n := min (t.laterCount + 1) 15
    let s := (s.modTask c (fun t => { t with later := late, laterCount := n })).modCtx c Ctx.abandon
    (s.writeReport c 0 cause v t.launch n late t.abandoned).deliver c 0 cause v

/-- A trap of a context, from source `src` with a cause and value, as every trap is taken: the first freezes the task, then it is
delivered; one that finds the task frozen is recorded, unless its own handler's SCU raised it, or the access that the first waits for
(13 R281-R285, 16 R353). -/
def State.trap (s : State) (c : CtxId) (src cause : Nat) (v : Word) : State :=
  if c.ctx = 4 then
    let abnd := (s.ctx c).blocked
    let s := s.modCtx c Ctx.abandon
    (s.writeReport c src cause v 0 0 [] abnd).deliver c src cause v
  else
    match s.task c with
    | none => s
    | some t =>
      if t.frozen && !(src == 0 && t.inHandler) then
        match src, (s.ctx c).pend with
        | 0, some p => s.trapEarlier c p cause v
        | _, _ => s.recordLater c src cause
      else if t.frozen then ((s.quiesce c).modTask c (fun u => { u with inHandler := false })).deliver c src cause v
      else if src = 0 then (s.freeze c src cause v).deliver c src cause v
      else (s.freeze c src cause v).deliverAt c src cause v

/-- A trap raised by an agent of a slot. -/
def State.trapAgent (s : State) (a : AgentId) (cause : Nat) (v : Word) : State := s.trap a.ctx a.kind.num cause v

/-! ### Engine intervals and their replay (16 R348, 08 R205, 09 R231) -/

/-- Zeroes a tile of a task. -/
def State.zeroTile (s : State) (c : CtxId) (t : Nat) : State := s.clearRange (tileAt c.coreId (s.tilePos c t) 0) 65536

/-- DISCARD of 16 R348 for one slot's stream. -/
def State.discard (s : State) (a : AgentId) : State :=
  let s := ((s.performOwn a).dropStaged a).dropWaiter a
  let s := s.unpark a.die (fun o => match o with | .engine b _ => b == a | _ => false)
  let s := { s with reqs := s.reqs.filter (fun r => match r.owner with
      | .read b _ _ | .xcad b _ => b ≠ a
      | _ => true) }
  let s := s.modStream a (fun x => { x with transfers := [], xcads := [], issuing := false, reports := [],
                                            faulting := false, wait := .none })
  let s := s.modCore a.coreId (fun k => { k with posted := k.posted.map (fun p => if p.agent = a then { p with drop := true } else p),
                                                 bucketHeld := k.bucketHeld.filter (fun h => h.1 != a.kind.num || h.2 != a.slot) })
  match a.kind with
  | .ve => s.modVe a.ctx (fun v => { v with pend := [] })
  | .me =>
    let s := ((s.me a.ctx).owned.map Prod.fst).foldl (fun s t => s.zeroTile a.ctx t) s
    let s := s.modMe a.ctx (fun m => { m with owned := [], depth := 0 })
    s.modCore a.coreId (fun k => { k with passes := k.passes.filter (fun p => p.slot ≠ a.slot) })
  | _ => s

/-- Restores the mark shadow of an engine (08 R205, 09 R221). -/
def State.restoreShadow (s : State) (a : AgentId) : State :=
  match a.kind with
  | .ve => s.modVe a.ctx (fun v => { v with p := v.shadow.p, tile := v.shadow.tile, half := v.shadow.half, cfg := v.shadow.cfg })
  | .me => s.modMe a.ctx (fun m => { m with cat := m.shadow.cat, names := m.shadow.names, plane0 := m.shadow.plane0,
                                            plane1 := m.shadow.plane1, active := m.shadow.active })
  | _ => s

/-- RELOAD and RESUME of 16 R348 for one slot's stream: the record from its last mark, the shadow, the generator reseeded from the
mark's accession, and the interval's votes to discard (08 R198). -/
def State.resumeMark (s : State) (a : AgentId) : State :=
  let x := s.stream a
  match x.queue.head?, x.active with
  | some r, true =>
    let s := s.restoreShadow a
    let s := if a.kind = .ve then
        (s.modVe a.ctx (fun v => v.reseed r.acc)).modCtx a.ctx (fun c => { c with revote := c.voted })
      else s
    match r.resume with
    | some idx =>
      s.modStream a (fun x => { x.beginPass r idx with atMark := false, markDue := false,
                                                       prevRow := if r.acc = 0 then none else some (passRow r r.mi) })
    | none => s
  | _, _ => s

/-- The reset of a released slot (13 R286). -/
def State.slotReset (s : State) (a : AgentId) : State := (s.discard a).resumeMark a

/-- Releases the frozen engines of a task that returns to depth 0 (13 R286): in place after an SCU or external trap and after cause
0x0C, else from their last marks. An engine whose mark is issuing its XCADs ends that mark first, after which its slot's reset would find
nothing to discard (16 R350). -/
def State.release (s : State) (c : CtxId) : State :=
  match s.task c with
  | none => s
  | some t =>
    let engines := engineKinds.map c.agent
    let s := if 1 ≤ t.frozenSrc ∧ t.frozenSrc ≤ 4 ∧ t.frozenCause ≠ 0x0C then
        engines.foldl (fun s a => if (s.stream a).issuing then s else s.slotReset a) s
      else s.readmit c
    let s := engines.foldl (fun s a => s.modStream a (fun x => { x with faulting := false, atMark := false })) s
    s.modTask c (fun t => { t with frozen := false, inHandler := false, preempted := false, frozenSrc := 0, frozenCause := 0, later := [],
                                   laterCount := 0 })

/-! ### Clearing a slot, a core, a die -/

/-- A slot's task ends: a CMDR that waits for its queue will not find it again (06 R155). -/
def Ctx.lose (x : Ctx) (c : CtxId) : Ctx := if x.cmdTarget = some (c, false) then { x with cmdTarget := some (c, true) } else x

/-- What a context whose task has ended still holds: its registers, until the next task starts in it (01 R20, 14 R321). -/
def Ctx.ended (x : Ctx) : Ctx :=
  { g := x.g, k := x.k, b := x.b, pc := x.pc, variant := x.variant, tpc := x.tpc, tcause := x.tcause, tval := x.tval, trep := x.trep, tvec := x.tvec,
    slotn := x.slotn, src := x.src, depth := x.depth, wopen := x.wopen, sched := x.sched, lvx := x.lvx, lve := x.lve }

/-- Frees what a task holds on its slot: its context, streams, VE and ME state, tiles and image use. -/
def State.clearSlot (s : State) (c : CtxId) : State :=
  let s := (s.quiesce c).closeOrder c
  let s := s.unpark c.die (fun o => match o with | .copy d _ | .image d => d == c | .engine b _ => b.ctx == c | _ => false)
  let s := { s with reqs := s.reqs.filter (fun r => match r.owner with
      | .scu d => d ≠ c
      | .read b _ _ | .xcad b _ => b.ctx ≠ c
      | _ => true) }
  let s := s.setTask c none
  let s : State := { s with ctxs := s.ctxs.map (fun e => (e.1, e.2.lose c)) }
  let s := s.setCtx c {}
  let s := engineKinds.foldl (fun s k => s.setStream (c.agent k) {}) s
  let s := (s.setVe c {}).setMe c {}
  let inUse (i : Image) : Bool := (CoreId.slots c.coreId).any (fun d => match s.task d with | some t => t.image == i | none => false)
  s.modCore c.coreId (fun k => { k with passes := k.passes.filter (fun p => p.slot ≠ c.ctx), tileMap := k.tileMap.filter (fun e => e.1 ≠ c.ctx), bucketHeld := k.bucketHeld.filter (fun h => h.2 ≠ c.ctx),
                                        images := k.images.filter (fun i => inUse i.1),
                                        pendingStep := k.pendingStep.filter (fun x => x ≠ c.ctx) })

/-- The instance placed on a slot. -/
def Inst.onSlot (i : Inst) (core slot : Nat) : Bool := i.status == .placed core slot

/-- Marks a launch failed: no die places further instances of it (16 R362). -/
def State.failLaunch (s : State) (seq : Nat) : State :=
  { s with launches := s.launches.map (fun l => if l.seq = seq then { l with failed := true } else l) }

/-- An instance of node `n` on die `d` ends: the count of every successor falls by 1, and nodes whose count reaches 0 become ready
(14 R318). A count whose word has failed is left for the Registrar's next use of it. -/
def State.succeed (s : State) (d seq n : Nat) : State :=
  match s.launches.find? (fun l => l.seq == seq) with
  | none => s
  | some l =>
    let succs := (l.body.edges.filter (fun e => e.1 == n)).map Prod.snd
    let keys := ((s.die d).preds.filter (fun p => p.1 == seq && succs.contains p.2.1)).map (fun p => (p.2.1, dieWord d p.2.2))
    let s := (keys.filter (fun k => !s.vaultBad.contains k.2)).foldl (fun s k => s.setWord k.2 (s.word k.2 - 1)) s
    let ready (m : Nat) : Bool := keys.any (fun k => k.1 == m && s.word k.2 == 0 && !s.vaultBad.contains k.2)
    s.modDie d (fun y =>
      { y with insts := y.insts.map (fun i => if i.launch = seq ∧ i.status = .waiting ∧ ready i.node then { i with status := .ready } else i) })

/-- Reissues the instance of a slot's task, or fails it when it is unreplayable or the abort says so (16 R360-R362). -/
def State.reissue (s : State) (c : CtxId) (afail : Bool) : State :=
  match s.task c with
  | none => s
  | some t =>
    let fails := afail || t.unreplayable
    let s := s.modDie c.die (fun y => { y with insts := y.insts.map (fun i =>
      if i.onSlot c.core c.ctx then
        (if fails then { i with status := .failed, set := none } else { i with status := .ready, bypass := 0 })
      else i) })
    if fails then (s.failLaunch t.launch).succeed c.die t.launch t.node else s

/-- Whether an atomic of a slot that is sent and not answered has been performed at its home when its task ends is open (10 R247; log entry 109). -/
def State.spoilSent (s : State) (c : CtxId) : State :=
  let sent (r : Req) : Bool := !r.denied && r.retryAt.isNone
    && (match r.owner with
        | .xcad a _ => a.ctx == c
        | .scu d => d == c && (s.ctx c).remote.any (fun m => m.rmw && m.tag == r.tag && m.gen == r.gen)
        | _ => false)
  if s.reqs.any sent then (if Config.freeBit s.freeCtr then s.tick.spoil c else s.tick) else s

/-- An abort of a slot (16 R360): the task ends without resuming, and its instance is reissued or failed. -/
def State.abort (s : State) (c : CtxId) (afail : Bool) : State :=
  match s.task c with
  | none => s
  | some t =>
    let s := (engineKinds.map c.agent).foldl State.discard (s.spoilSent c)
    let s := (List.range t.tiles).foldl (fun s i => s.zeroTile c i) s
    let s := s.modCore c.coreId (fun k => { k with posted := k.posted.map (fun p => if p.agent.ctx = c then { p with drop := true } else p) })
    (s.reissue c afail).clearSlot c

/-- Conservator buckets at core reset (17 R378): BAL equals CAP. -/
def tableBuckets (t : ConsTables) : Vector Bucket 5 :=
  tabulate 5 (fun i => ⟨(t.caps.getD i 0 : Int) * 16, t.rates.getD i 0, t.caps.getD i 0⟩)

/-- The conservator tables of a core: those of its last live update (18 R393), or those of the last boot. -/
def State.tablesOf (s : State) (c : CoreId) : ConsTables := (s.core c).tables.getD s.service.tables

/-- The rolling period of an engine (16 R351): tables that replace a core's are taken up at its next rolling reset (18 R393). -/
def State.rollPeriod (s : State) (c : CoreId) (k : AgentKind) : Nat :=
  match (s.core c).newTables with
  | some (t, _, left) => if left.contains k.num then (s.tablesOf c).rollPeriod else t.rollPeriod
  | none => (s.tablesOf c).rollPeriod

/-- A core reset (16 R363) up to the docent's restart; `tval` is that of the posted entry. -/
def State.coreReset (s : State) (c : CoreId) (tval : Word) : State :=
  let s := c.slots.foldl (fun s d => if (s.task d).isSome then s.abort d false else s.clearSlot d) s
  let dc : CtxId := ⟨c.die, c.core, 4⟩
  let s := (s.closeOrder dc).unpark c.die (fun o => match o with | .scu d => d == dc | .cellar k _ _ => k == c | _ => false)
  let s := { s with reqs := s.reqs.filter (fun r => match r.owner with | .scu d => d ≠ dc | _ => true) }
  let s := s.setCtx dc {}
  let s := s.clearRange (tileAt c 0 0) (16 * 65536)
  let s := s.clearRange (ispaceAt c 0) 32768
  let old := s.core c
  let s := s.setCore c { posted := old.posted.map (fun p => { p with drop := true }), crst := some s.cycle, sawStep := old.sawStep,
                         unitBase := tabulate 5 (fun u => (old.unitCycles u s.cycle, s.cycle)),
                         nextIssue := old.nextIssue, docLast := old.unitCycles 0 s.cycle,
                         buckets := tableBuckets (s.tablesOf c), rollAt := Vector.replicate 4 s.cycle, hotter := old.hotter,
                         docBusy := old.docBusy, tables := old.tables, newTables := old.newTables }
  s.post ⟨0x0E, tval, 0, c.die, c.core, 4, 5, 0⟩

/-- A die reset (16 R364) up to the restart of its cores and Registrar. -/
def State.dieReset (s : State) (d : Nat) : State :=
  let s := (List.range 64).foldl (fun s c => s.coreReset ⟨d, c⟩ (BitVec.ofNat 64 0x45)) s
  let s := s.modDie d (fun y => { y with tlb := [], parked := y.parked.filter (fun p => p.owner == .registrar), inval := none,
                                         invalDone := y.invalDone || y.inval.isSome, resetAt := some s.cycle })
  s

/-- Whether a launch's allotment holds a word of a die's vault: its run, its counts, or a replay set of its instances (14 R309). -/
def State.allots (s : State) (d i : Nat) (l : Launch) : Bool :=
  l.dies.contains d
    && ((decide (l.base ≤ i) && decide (i < l.base + l.words)) || (s.die d).preds.any (fun p => p.1 == l.seq && p.2.2 == i)
      || (s.die d).insts.any (fun j => j.launch == l.seq && (match j.set with | some k => (i - 14336) / 8 == k && decide (14336 ≤ i) | none => false)))

/-- A vault word whose two copies both fail (16 R364): a die reset that fails the launches holding the word, or for the package vault a
package reset (16 R345). -/
def State.vaultFailure (s : State) (key : Nat) : State :=
  let s : State := { s with vaultHit := s.vaultHit.filter (fun k => k != key) }
  if key < pkgWord 0 then
    let d := key / 65536
    let i := key % 65536
    let s := (s.launches.filter (s.allots d i)).foldl
      (fun s l => s.failLaunch l.seq) s
    if (s.die d).resetAt.isSome then s else s.dieReset d
  else { s with cur := { s.cur with pkgReset := true } }

/-- The failure of a vault word that an undoing has found. -/
def State.vaultFound (s : State) (key : Nat) : State :=
  if s.vaultBad.contains key then s.vaultFailure key else { s with vaultHit := s.vaultHit.filter (fun k => k != key) }

/-- Runs an operation on a vault word unless both copies have failed. -/
def State.withWord (s : State) (key : Nat) (f : State → State) : State :=
  if s.vaultBad.contains key then s.vaultFailure key else f s

end Sys2Proof.Machine
end

