-- ==== Sys2Proof/Machine/Operands.lean ====
section
/-! DEFINITION. The operand forms of the SCU (05 R110-R113, 06 R129-R144): registers, guards, immediates, the program counter with its
delay slots, and the one frame in which every SCU instruction runs. -/

namespace Sys2Proof.Machine

/-- What exec answers. -/
abbrev Res := Host.Outcome State Fault Refusal

/-! ### Registers -/

/-- g[i]; g0 reads 0 (06 R129). -/
def Ctx.reg (x : Ctx) (i : Nat) : Word := if i = 0 then 0 else x.g.getD i 0
/-- Writes g[i]; a write to g0 is discarded. -/
def Ctx.setReg (x : Ctx) (i : Nat) (v : Word) : Ctx := if i = 0 then x else { x with g := setNth x.g i v }
/-- k[i]; k15 reads 1. -/
def Ctx.cond (x : Ctx) (i : Nat) : Bool := if i = 15 then true else x.k.getD i false
/-- Writes k[i]; a write to k15 is discarded. -/
def Ctx.setCond (x : Ctx) (i : Nat) (v : Bool) : Ctx := if i = 15 then x else { x with k := setNth x.k i v }
/-- b[i] (06 R129). -/
def Ctx.target (x : Ctx) (i : Nat) : Nat := x.b.getD i 0
/-- Writes b[i], 14 bits. -/
def Ctx.setTarget (x : Ctx) (i v : Nat) : Ctx := { x with b := setNth x.b i (v % 16384) }

/-- A sign-extended field as a word (05 R123). -/
def sx (width n : Nat) : Word := wordOfInt (signed width n)
/-- A zero-extended number as a word. -/
def zx (n : Nat) : Word := BitVec.ofNat 64 n

/-- The guard of an SCU instruction: k[G] xor N (05 R101). -/
def Ctx.guardOn (x : Ctx) (gd : Guard) : Bool := x.cond gd.sel != (gd.neg == 1)

/-! ### The program counter and its delay slots (06 R143) -/

/-- Where a context stands past an instruction of `size` halfwords: the next index, one delay slot less, or after the second delay slot
the end of the transfer. -/
def Ctx.nextPoint (x : Ctx) (size : Nat) : Nat × Option Xfer :=
  match x.xfer with
  | none => (x.pc + size, none)
  | some f =>
    if f.left ≤ 1 then (if f.taken then f.tgt else x.pc + size, none) else (x.pc + size, some { f with left := f.left - 1 })

/-- Moves past an instruction of `size` halfwords. -/
def Ctx.advance (x : Ctx) (size : Nat) : Ctx := { x with pc := (x.nextPoint size).1, xfer := (x.nextPoint size).2 }

/-- The context after an instruction that completed. -/
def Ctx.complete (x : Ctx) (size : Nat) : Ctx := { x.advance size with blocked := false, wd := 0, remote := none, parked := .no, cmdTarget := none }

/-! ### The frame of an SCU instruction -/

/-- What the body of an SCU instruction comes to: it completes, or has set the program counter itself, or blocks (06 R133), or stalls
on a register, or traps with a cause and value (06 R132). -/
inductive ScuOut where
  | done (s : State)
  | placed (s : State)
  | block (s : State)
  | stall (s : State)
  | trap (cause : Nat) (v : Word) (s : State)

/-- The context the SCU runs. -/
def State.here (s : State) : CtxId := s.agent.ctx

/-- Ends an SCU instruction of `size` halfwords. -/
def State.finish (s : State) (size : Nat) : Res := .next (s.modCtx s.here (fun x => x.complete size))

/-- A bucket from which an operation's cost has been taken (17 R379-R380); CAP 0 does not limit. -/
def Bucket.spend (b : Bucket) (cost : Nat) : Bucket := if b.cap = 0 then b else { b with bal := b.bal - cost * 16 }

/-- Charges a current bucket of a core for an operation that issues. -/
def State.charge (s : State) (c : CoreId) (cls cost : Nat) : State :=
  s.modCore c (fun k => { k with buckets := setNth k.buckets cls ((k.buckets.getD cls {}).spend cost) })

/-- Whether a bucket lets an operation of a cost issue (17 R380). -/
def State.affords (s : State) (c : CoreId) (cls cost : Nat) : Bool :=
  let b := (s.core c).buckets.getD cls {}
  b.cap == 0 || (if cost ≤ b.cap then decide ((cost : Int) * 16 ≤ b.bal) else b.bal == (b.cap : Int) * 16)

/-- Charges the SCU's bucket for an instruction as it issues (17 R379): one that has waited paid when it began to. -/
def State.pay (s : State) (waited : Bool) : State := if waited then s else s.charge s.here.coreId 0 1

/-- A blocking instruction issues and waits (06 R133, 17 R379), or goes on waiting. -/
def State.beginWait (s : State) (waited : Bool) : State := (s.pay waited).modCtx s.here (fun x => { x with blocked := true })

/-- Acts on what the body of an instruction, which may have waited, came to. -/
def ScuOut.settle (o : ScuOut) (waited : Bool) (size : Nat) : Res :=
  match o with
  | .done s => (s.pay waited).finish size
  | .placed s => .next (s.pay waited)
  | .block s => .next (s.beginWait waited)
  | .stall s => .next s
  | .trap cause v s => .next (s.trap s.here 0 cause v)

/-- The first pending copy whose token an instruction touches (06 R157). -/
def Ctx.token (x : Ctx) (touch : List Nat) : Option Copy := x.copies.find? (fun c => c.reg != 0 && touch.contains c.reg)

/-- The first read of the tokens of copies that have ended acquires what these wrote (04 R93). -/
def State.readTokens (s : State) (touch : List Nat) : State :=
  match (s.ctx s.here).unread.filter touch.contains with
  | [] => s
  | rs => (s.acquire s.agent (fun h => rs.any (fun r => h == .token s.here r))).modCtx s.here (fun x =>
      { x with unread := x.unread.filter (fun r => !rs.contains r) })

/-- Runs the body of an SCU instruction under its guard, after the tokens it touches (06 R157): a false guard has no effect (05 R102), a
pending copy stalls it, and a faulted copy writes its byte count and traps. -/
def State.scu (s : State) (gd : Guard) (touch : List Nat) (size : Nat) (f : State → ScuOut) : Res :=
  let x := s.ctx s.here
  if !x.guardOn gd then s.finish size
  else
    match x.token touch with
    | some c =>
      match c.fault with
      | some (cause, v, n) =>
        (ScuOut.trap cause v (s.modCtx s.here (fun y => ({ y with copies := y.copies.erase c }).setReg c.reg (zx n)))).settle x.blocked size
      | none => (ScuOut.stall s).settle x.blocked size
    | none => (f (s.readTokens touch)).settle x.blocked size

/-- An SCU instruction that writes one register from a function of the context. -/
def State.scuWrite (s : State) (gd : Guard) (touch : List Nat) (size d : Nat) (f : Ctx → Word) : Res :=
  s.scu gd touch size (fun s => .done (s.modCtx s.here (fun x => x.setReg d (f x))))

/-- An illegal instruction word: cause 0x01 with the word (05 R100, R123). -/
def State.illegal (s : State) (w : Nat) : Res := (ScuOut.trap 0x01 (zx w) s).settle false 0

/-- Whether the context stands in a delay slot (06 R144). -/
def State.inSlot (s : State) : Bool := (s.ctx s.here).xfer.isSome
/-- Whether the context is the docent's. -/
def State.docent (s : State) : Bool := s.here.ctx == 4

/-! ### Waiting for an access (06 R146, 04 R81, R83) -/

/-- Ends an access that meets an absent page: it parks, then it waits for the verdict (15 R327-R328). It is no blocking
instruction of 06 R133. -/
def State.parkScu (s : State) (asid va kind : Nat) (wr : Bool) : ScuOut :=
  match (s.ctx s.here).parked with
  | .waiting => .stall s
  | _ => .stall ((s.modCtx s.here (fun x => { x with parked := .waiting })).park s.here.die va asid kind wr (.scu s.here))

/-- The posted writes of the running context that are not yet acknowledged. -/
def State.ownPosted (s : State) : List Posted := (s.core s.here.coreId).posted.filter (fun p => p.agent == s.agent && !p.drop)

/-- Whether an access of the running context is held: every one by a FENCE.FULL or FENCE.ALL, and a strong write by a FENCE.WW, until the
strong posted writes before the fence are performed (04 R83); a release until every posted write before it is (04 R81). -/
def State.heldBack (s : State) (strongWrite release : Bool) : Bool :=
  let x := s.ctx s.here
  s.ownPosted.any (fun p => x.fenced.contains p.id || (strongWrite && x.fencedW.contains p.id) || release)

/-- Runs an access of the SCU unless it is held. -/
def State.access (s : State) (strongWrite release : Bool) (f : State → ScuOut) : ScuOut :=
  if s.heldBack strongWrite release then .stall s else f s

/-- The ASID a context's accesses run in; the docent has no work queue, so its accesses run in ASID 0 (log entry 15). -/
def State.asid (s : State) (c : CtxId) : Nat :=
  match s.task c with
  | some t => t.asid
  | none => 0

end Sys2Proof.Machine
end

