-- ==== Sys2Proof/Machine/Flags.lean ====
section
/-! DEFINITION. The conditions of the SCU's compares (06 R139) and the sticky flags of the VE with their trap (02 R42, 08 R203-R204). -/

namespace Sys2Proof.Machine

/-- The condition of CMP and CMPI: EQ, NE, LT, GE on signed values (06 R139). -/
def condSigned (cc : Nat) (a y : Word) : Bool :=
  match cc with
  | 0 => a == y
  | 1 => a != y
  | 2 => a.slt y
  | _ => !a.slt y

/-- The condition of CMPN and CMPIN: LT, GE on natural values, TST, NTST (06 R139). -/
def condNatural (cc : Nat) (a y : Word) : Bool :=
  match cc with
  | 0 => a.ult y
  | 1 => !a.ult y
  | 2 => (a &&& y) != 0
  | _ => (a &&& y) == 0

/-- Writes a condition and its complement into a pair of k registers (06 R139). -/
def Ctx.setPair (x : Ctx) (kp : Nat) (c : Bool) : Ctx := (x.setCond (2 * kp) c).setCond (2 * kp + 1) (!c)

/-- The VE flags in the order of FLAGS (08 R203). -/
def flagIV : Nat := 1
def flagDZ : Nat := 2
def flagOF : Nat := 4
def flagUF : Nat := 8
def flagSA : Nat := 16

/-- Sets sticky flags. -/
def VeCfg.raise (c : VeCfg) (flags : Nat) : VeCfg := { c with flags := c.flags ||| flags }

/-- The raised flags that are enabled (08 R204). -/
def VeCfg.trapping (c : VeCfg) (flags : Nat) : Bool := flags &&& c.en != 0

end Sys2Proof.Machine
end

