-- ==== Sys2Proof/Machine/Numbers.lean ====
section
/-! DEFINITION. Number formats and arithmetic (02 R30-R50): values as exact dyadic numbers, decoding, rounding in the five modes,
conversions, N4X, and the accumulation of a matrix pass. -/

namespace Sys2Proof.Machine

/-! ### Values and formats (02 R30-R33) -/

/-- An exact value: NaN, a signed infinity, a signed zero, or m × 2^e with m not 0. -/
inductive Val where
  | nan
  | inf (neg : Bool)
  | zero (neg : Bool)
  | fin (m : Int) (e : Int)
deriving DecidableEq, Repr

/-- A float format: width, exponent and fraction bits, bias, and whether it has infinities. -/
structure Fmt where
  width : Nat
  ebits : Nat
  fbits : Nat
  bias : Int
  hasInf : Bool
deriving DecidableEq, Repr

def fp32 : Fmt := ⟨32, 8, 23, 127, true⟩
def bf16 : Fmt := ⟨16, 8, 7, 127, true⟩
def fp16 : Fmt := ⟨16, 5, 10, 15, true⟩
def e4m3 : Fmt := ⟨8, 4, 3, 7, false⟩
def e5m2 : Fmt := ⟨8, 5, 2, 15, true⟩
def e2m1 : Fmt := ⟨4, 2, 1, 1, false⟩

/-- The float type of a ty field (05 R115). -/
def floatTy : Nat → Fmt
  | 0 => fp32
  | 1 => fp16
  | _ => bf16

/-- The float format of a format code (05 R117). -/
def floatCode : Nat → Option Fmt
  | 0 => some fp32
  | 1 => some bf16
  | 2 => some fp16
  | 3 => some e4m3
  | 4 => some e5m2
  | 5 => some e2m1
  | _ => none

/-- The width in bits of a format code (05 R117). -/
def codeWidth : Nat → Nat
  | 0 | 9 | 11 => 32
  | 1 | 2 | 10 | 12 => 16
  | 3 | 4 | 6 | 13 => 8
  | _ => 4

/-- The exponent of the smallest normal. -/
def Fmt.emin (f : Fmt) : Int := 1 - f.bias

/-- Decode of a float format (02 R30-R31). -/
def Fmt.decode (f : Fmt) (bits : Nat) : Val :=
  let s := bits.testBit (f.width - 1)
  let e := fld bits f.fbits f.ebits
  let m := fld bits 0 f.fbits
  let sg (n : Nat) : Int := if s then -(n : Int) else n
  if f.hasInf ∧ e = 2 ^ f.ebits - 1 then (if m = 0 then .inf s else .nan)
  else if f = e4m3 ∧ e = 15 ∧ m = 7 then .nan
  else if e = 0 then (if m = 0 then .zero s else .fin (sg m) (f.emin - f.fbits))
  else .fin (sg (2 ^ f.fbits + m)) ((e : Int) - f.bias - f.fbits)

/-- The value of an integer. -/
def Val.ofInt (n : Int) : Val := if n = 0 then .zero false else .fin n 0

/-- One element of an N4X byte (02 R36). -/
def n4xDecode (byte : Nat) (odd : Bool) : Val :=
  let l := byte % 16
  let h := byte / 16 % 16
  let outlier (esc : Nat) : Val := .fin (if esc.testBit 3 then -1 else 1) ((esc % 8 : Nat) + 3)
  if l = 8 ∧ h = 8 then .nan
  else if l = 8 then (if odd then .zero false else outlier h)
  else if h = 8 then (if odd then outlier l else .zero false)
  else .ofInt (signed 4 (if odd then h else l))

/-- Decode of element `j` of a format code; `bits` is the element, or for N4X its byte (02 R33). -/
def decodeCode (code bits j : Nat) : Val :=
  match floatCode code with
  | some f => f.decode bits
  | none =>
    if code = 8 then n4xDecode bits (j % 2 == 1)
    else if code = 6 ∨ code = 7 ∨ code = 9 ∨ code = 10 then .ofInt (signed (codeWidth code) bits)
    else .ofInt (bits : Int)

/-- The sign bit of a value. -/
def Val.neg : Val → Bool
  | .nan => false
  | .inf s | .zero s => s
  | .fin m _ => decide (m < 0)

/-- The negated value. -/
def Val.negate : Val → Val
  | .nan => .nan
  | .inf s => .inf (!s)
  | .zero s => .zero (!s)
  | .fin m e => .fin (-m) e

/-- The magnitude. -/
def Val.abs : Val → Val
  | .nan => .nan
  | .inf _ => .inf false
  | .zero _ => .zero false
  | .fin m e => .fin m.natAbs e

def Val.isNan (v : Val) : Bool := v == .nan
def Val.isInf : Val → Bool
  | .inf _ => true
  | _ => false
def Val.isZero : Val → Bool
  | .zero _ => true
  | _ => false

/-- Multiplies a value by a power of two. -/
def Val.scale (v : Val) (k : Int) : Val :=
  match v with
  | .fin m e => .fin m (e + k)
  | w => w

/-- Scaled (02 R34): a value under a block scale byte. -/
def Val.scaled (v : Val) (e : Nat) : Val := if e = 0xFF then .nan else v.scale ((e : Int) - 127)

/-- FloorLog2 of m × 2^e for a positive m. -/
def flog2 (m : Nat) (e : Int) : Int := (m.log2 : Int) + e

/-- Whether a value is subnormal in a format. -/
def Val.subnormal (v : Val) (f : Fmt) : Bool :=
  match v with
  | .fin m e => decide (flog2 m.natAbs e < f.emin)
  | _ => false

/-- FlushIn (02 R41). -/
def Val.flush (v : Val) (ftz : Bool) (f : Fmt) : Val := if ftz && v.subnormal f then .zero v.neg else v

/-! ### Exact sums and products -/

/-- Shifts an integer left by a natural amount. -/
def shiftInt (m : Int) (k : Nat) : Int := m * (2 ^ k : Nat)

/-- The sum of m × 2^e and n × 2^f, at the lower exponent. -/
def addDy (a b : Int × Int) : Int × Int :=
  let g := min a.2 b.2
  (shiftInt a.1 (a.2 - g).toNat + shiftInt b.1 (b.2 - g).toNat, g)

/-- The product of two values; an infinity times a zero is NaN. -/
def Val.mul (x y : Val) : Val :=
  match x, y with
  | .nan, _ | _, .nan => .nan
  | .inf s, y => if y.isZero then .nan else .inf (s != y.neg)
  | x, .inf s => if x.isZero then .nan else .inf (s != x.neg)
  | .zero s, y => .zero (s != y.neg)
  | x, .zero s => .zero (s != x.neg)
  | .fin m e, .fin n f => .fin (m * n) (e + f)

/-- Whether a product is an infinity times a zero. -/
def infTimesZero (x y : Val) : Bool := (x.isInf && y.isZero) || (x.isZero && y.isInf)

/-- The exact sum of finite non-zero terms. -/
def sumDy (l : List Val) : Int × Int :=
  l.foldl (fun acc v => match v with | .fin m e => addDy acc (m, e) | _ => acc) (0, 0)

/-! ### Rounding (02 R38-R42) -/

/-- Whether a magnitude N + rem / 2^k rounds up to N + 1. Mode 0 RNE, 1 RTZ, 2 RDN, 3 RUP, 4 SR with draw `u`. -/
def roundsUp (mode u : Nat) (neg : Bool) (n rem k : Nat) : Bool :=
  match mode with
  | 0 => decide (2 ^ k < 2 * rem) || (decide (2 * rem = 2 ^ k) && n % 2 == 1 && rem != 0)
  | 1 => false
  | 2 => neg && rem != 0
  | 3 => !neg && rem != 0
  | _ => decide (u < rem * 2 ^ 32 / 2 ^ k)

/-- Rounds m × 2^e to a multiple of 2^g: the multiple, and whether it is exact. -/
def roundGrid (mode u : Nat) (neg : Bool) (m : Nat) (e g : Int) : Nat × Bool :=
  if g ≤ e then (m * 2 ^ (e - g).toNat, true)
  else
    let k := (g - e).toNat
    let n := m / 2 ^ k
    let rem := m % 2 ^ k
    (if roundsUp mode u neg n rem k then n + 1 else n, rem == 0)

/-- The canonical NaN (02 R43); E2M1 has none. -/
def Fmt.nanBits (f : Fmt) : Nat :=
  if f = e4m3 then 0x7F else if f = e2m1 then 0 else (2 ^ f.ebits - 1) * 2 ^ f.fbits + 2 ^ (f.fbits - 1)

/-- The sign bit of a format, in place. -/
def Fmt.signBit (f : Fmt) (neg : Bool) : Nat := if neg then 2 ^ (f.width - 1) else 0

/-- The encoding of infinity. -/
def Fmt.infBits (f : Fmt) (neg : Bool) : Nat := f.signBit neg + (2 ^ f.ebits - 1) * 2 ^ f.fbits

/-- The encoding of the largest finite magnitude. -/
def Fmt.maxBits (f : Fmt) (neg : Bool) : Nat :=
  f.signBit neg + (if f = e4m3 then 0x7E else if f = e2m1 then 7 else (2 ^ f.ebits - 1) * 2 ^ f.fbits - 1)

/-- The largest finite magnitude as N × 2^g. -/
def Fmt.maxMag (f : Fmt) : Nat × Int :=
  if f = e4m3 then (14, 5)
  else if f = e2m1 then (3, 1)
  else (2 ^ (f.fbits + 1) - 1, (2 ^ f.ebits : Nat) - 2 - f.bias - f.fbits)

/-- Whether N × 2^g exceeds a format's largest finite magnitude. -/
def Fmt.exceeds (f : Fmt) (n : Nat) (g : Int) : Bool :=
  let d := addDy ((n : Int), g) (-(f.maxMag.1 : Int), f.maxMag.2)
  decide (0 < d.1)

/-- What an overflow gives (02 R39). -/
def Fmt.overflow (f : Fmt) (mode : Nat) (neg : Bool) : Nat × Nat :=
  if !f.hasInf then (f.maxBits neg, flagSA)
  else
    let toInf : Bool :=
      match mode with
      | 1 => false
      | 2 => neg
      | 3 => !neg
      | _ => true
    (if toInf then f.infBits neg else f.maxBits neg, flagOF)

/-- The encoding of N × 2^g, which lies on the format's grid. -/
def Fmt.encodeMag (f : Fmt) (neg : Bool) (n : Nat) (g : Int) : Nat :=
  if n < 2 ^ f.fbits then f.signBit neg + n
  else if n = 2 ^ (f.fbits + 1) then f.signBit neg + ((g + 1 + f.fbits + f.bias).toNat) * 2 ^ f.fbits
  else f.signBit neg + ((g + f.fbits + f.bias).toNat) * 2 ^ f.fbits + (n - 2 ^ f.fbits)

/-- RoundTo of a non-zero finite value (02 R38-R42): the encoding and the flags. `ftz` flushes a subnormal result. -/
def Fmt.roundFin (f : Fmt) (mode u : Nat) (ftz : Bool) (v : Int) (e : Int) : Nat × Nat :=
  let neg := decide (v < 0)
  let m := v.natAbs
  let g := max (flog2 m e) f.emin - f.fbits
  let r := roundGrid mode u neg m e g
  if f.exceeds r.1 g then f.overflow mode neg
  else if r.1 < 2 ^ f.fbits ∧ r.1 ≠ 0 ∧ ftz then (f.signBit neg, flagUF)
  else (f.encodeMag neg r.1 g, if r.1 < 2 ^ f.fbits ∧ (r.1 = 0 ∨ !r.2) then flagUF else 0)

/-- RoundTo (02 R50), with the special values of R44. -/
def Fmt.round (f : Fmt) (mode u : Nat) (ftz : Bool) (v : Val) : Nat × Nat :=
  match v with
  | .nan => (f.nanBits, if f = e2m1 then flagIV else 0)
  | .inf s => if f.hasInf then (f.infBits s, 0) else (f.maxBits s, flagSA)
  | .zero s => (f.signBit s, 0)
  | .fin m e => f.roundFin mode u ftz m e

/-- RoundInt (02 R50) of m × 2^e. -/
def roundInt (mode u : Nat) (m e : Int) : Int :=
  let r := (roundGrid mode u (decide (m < 0)) m.natAbs e 0).1
  if m < 0 then -(r : Int) else r

/-- ConvInt (02 R45) into the range lo to hi. -/
def convInt (mode u : Nat) (lo hi : Int) (v : Val) : Int × Nat :=
  match v with
  | .nan => (0, flagIV)
  | .inf s => (if s then lo else hi, flagSA)
  | .zero _ => (0, 0)
  | .fin m e =>
    let n := roundInt mode u m e
    if hi < n then (hi, flagSA) else if n < lo then (lo, flagSA) else (n, 0)

/-- The range of an integer format code (02 R32, R45). -/
def intRange (code : Nat) : Int × Int :=
  match code with
  | 6 => (-128, 127)
  | 7 => (-7, 7)
  | 9 => (-2147483648, 2147483647)
  | 10 => (-32768, 32767)
  | 11 => (0, 4294967295)
  | 12 => (0, 65535)
  | _ => (0, 255)

/-! ### N4X encoding (02 R37) -/

/-- One element on its way into an N4X byte: code or escape (sign and p - 3), the magnitude of an escape, and the flags. -/
structure N4xPart where
  code : Int
  esc : Option Nat
  mag : Int × Int
  flags : Nat

/-- The element half of N4XEncodePair for a unit scale. -/
def n4xPart (mode : Nat) (v : Val) : N4xPart :=
  match v with
  | .nan => ⟨0, none, (0, 0), flagIV⟩
  | .inf s => ⟨if s then -7 else 7, none, (0, 0), flagSA⟩
  | .zero _ => ⟨0, none, (0, 0), 0⟩
  | .fin m e =>
    let n := roundInt (if mode = 4 then 0 else mode) 0 m e
    if n.natAbs ≤ 7 then ⟨n, none, (0, 0), 0⟩
    else
      let p := flog2 m.natAbs e
      let up := decide (0 ≤ (addDy ((m.natAbs : Int), e) (-3, p - 1)).1)
      let p := if up then p + 1 else p
      let sat := decide (10 < p)
      let p := if sat then 10 else p
      if m < 0 ∧ p = 3 then ⟨-7, none, (0, 0), flagSA⟩
      else ⟨0, some ((if m < 0 then 8 else 0) + (p - 3).toNat), ((m.natAbs : Int), e), if sat then flagSA else 0⟩

/-- N4XEncodePair for a unit scale (02 R37): the byte and the flags. -/
def n4xEncode (mode : Nat) (x0 x1 : Val) : Nat × Nat :=
  let a := n4xPart mode x0
  let b := n4xPart mode x1
  let fl := a.flags ||| b.flags
  let nib (c : Int) : Nat := (c % 16).toNat
  match a.esc, b.esc with
  | some ea, some eb =>
    if 0 < (addDy b.mag (-a.mag.1, a.mag.2)).1 then (8 * 16 + eb, fl ||| flagSA) else (ea * 16 + 8, fl ||| flagSA)
  | some ea, none => (ea * 16 + 8, fl)
  | none, some eb => (8 * 16 + eb, fl)
  | none, none => (nib b.code * 16 + nib a.code, fl)

/-! ### Sums of terms (07 R170, R184) -/

/-- The rounded exact sum of terms, with the NaN, infinity and zero rules of 07 R170: the encoding and the flags. An invalid product has
been dealt with before. -/
def Fmt.sum (f : Fmt) (mode u : Nat) (ftz : Bool) (terms : List Val) : Nat × Nat :=
  if terms.any Val.isNan then (f.nanBits, 0)
  else if terms.any (fun v => v == .inf false) ∧ terms.any (fun v => v == .inf true) then (f.nanBits, flagIV)
  else if terms.any Val.isInf then (f.infBits (terms.any (fun v => v == .inf true)), 0)
  else if terms.isEmpty then (0, 0)
  else if terms.all (fun v => v == .zero true) then (f.signBit true, 0)
  else if terms.all (fun v => v == .zero false) then (f.signBit false, 0)
  else
    let s := sumDy terms
    if s.1 = 0 then (f.signBit (mode == 2), 0) else f.roundFin mode u ftz s.1 s.2

/-! ### The accumulation of a matrix pass (02 R47-R48) -/

/-- Floor of m × 2^e over 2^g, as a multiple of 2^g. -/
def floorGrid (m e g : Int) : Int := if g ≤ e then shiftInt m (e - g).toNat else m / (2 ^ (g - e).toNat : Nat)

/-- AccumulatePass: the FP32 encoding. -/
def accumulate (acc : Val) (ps : List Val) : Nat :=
  let terms := acc :: ps
  if terms.any Val.isNan then fp32.nanBits
  else if terms.any (fun v => v == .inf false) ∧ terms.any (fun v => v == .inf true) then fp32.nanBits
  else if terms.any Val.isInf then fp32.infBits (terms.any (fun v => v == .inf true))
  else
    let z := terms.filterMap (fun v => match v with | .fin m e => some (m, e) | _ => none)
    match z with
    | [] => fp32.signBit (terms.all (fun v => v == .zero true))
    | t :: ts =>
      let emax := ts.foldl (fun a v => max a (flog2 v.1.natAbs v.2)) (flog2 t.1.natAbs t.2)
      let g := emax - 63
      let s := (z.map (fun v => floorGrid v.1 v.2 g)).foldl (· + ·) 0
      if s = 0 then 0 else (fp32.roundFin 0 0 false s g).1

/-- An integer pass (02 R48). -/
def accumulateInt (acc : Int) (ps : List Int) : Nat := ((ps.foldl (· + ·) acc) % 2 ^ 32).toNat

/-! ### Ordering -/

/-- x < y on values that are not NaN; zeros are equal. -/
def Val.lt (x y : Val) : Bool :=
  match x, y with
  | .nan, _ | _, .nan => false
  | .inf s, .inf t => s && !t
  | .inf s, _ => s
  | _, .inf t => !t
  | .zero _, .zero _ => false
  | .zero _, .fin n _ => decide (0 < n)
  | .fin m _, .zero _ => decide (m < 0)
  | .fin m e, .fin n f => decide ((addDy (m, e) (-n, f)).1 < 0)

/-- x = y, with -0 equal to +0; false for NaN. -/
def Val.eq (x y : Val) : Bool :=
  match x, y with
  | .nan, _ | _, .nan => false
  | x, y => !x.lt y && !y.lt x

/-- The order of maximumNumber: as `lt`, with -0 below +0 (07 R171). -/
def Val.below (x y : Val) : Bool := x.lt y || (x == .zero true && y == .zero false)

end Sys2Proof.Machine
end

