-- ==== Sys2Proof/Machine/Digest.lean ====
section
/-! DEFINITION. The standard functions the manual computes with: AES-GMAC under a 256-bit key (14 R293, 15 R337, 17 R370), as FIPS 197 and NIST SP
800-38D define it, SHA-384 (17 R386, 18 R389), as FIPS 180-4 does, and the verification of ECDSA signatures on the 384-bit Brainpool curve of RFC 5639 in its
random-parameter form (18 R388; log entry 8). -/

namespace Sys2Proof.Machine

/-- Bytes of a number, most-significant first. -/
def beBytes (n v : Nat) : List Byte := (natLe n v).reverse

/-- The number that bytes write, most-significant first. -/
def beNat (l : List Byte) : Nat := leNat l.reverse

/-! ### AES with a 256-bit key (FIPS 197) -/

/-- A product by x in GF(2^8). -/
def xtime (a : Byte) : Byte := (a <<< 1) ^^^ (if a.getLsbD 7 then 0x1B else 0)

/-- A product in GF(2^8), over the 8 bits of the second factor. -/
def gfMul (a b : Byte) : Byte :=
  ((List.range 8).foldl (fun (e : Byte × Byte) i => (if b.getLsbD i then e.1 ^^^ e.2 else e.1, xtime e.2)) (0, a)).1

/-- The inverse of a byte of GF(2^8), 0 for 0: its 254th power. -/
def gfInv (a : Byte) : Byte := (List.range 6).foldl (fun y _ => gfMul (gfMul y y) a) a |> fun y => gfMul y y

/-- The substitution of a byte. -/
def subByte (a : Byte) : Byte :=
  let b := gfInv a
  b ^^^ b.rotateLeft 1 ^^^ b.rotateLeft 2 ^^^ b.rotateLeft 3 ^^^ b.rotateLeft 4 ^^^ 0x63

/-- Two lists of bytes, added bit by bit. -/
def xorBytes (a b : List Byte) : List Byte := a.zipWith (· ^^^ ·) b

/-- The words of a key schedule, newest first: `n` more after those given. -/
def keyWords : Nat → List (List Byte) → List (List Byte)
  | 0, ws => ws
  | n + 1, ws =>
    let i := ws.length
    let last := ws.headD []
    let t :=
      if i % 8 = 0 then xorBytes ((last.drop 1 ++ last.take 1).map subByte) [BitVec.ofNat 8 (2 ^ (i / 8 - 1)), 0, 0, 0]
      else if i % 8 = 4 then last.map subByte
      else last
    keyWords n (xorBytes (ws.getD 7 []) t :: ws)

/-- The fifteen round keys of a key of 32 bytes, 16 bytes each. -/
def roundKeys (key : List Byte) : List (List Byte) :=
  let ws := (keyWords 52 ((List.range 8).map (fun i => (key.drop (4 * i)).take 4)).reverse).reverse
  (List.range 15).map (fun r => ((ws.drop (4 * r)).take 4).flatten)

/-- Row r of the state moves left by r. -/
def shiftRows (s : List Byte) : List Byte := (List.range 16).map (fun i => s.getD ((i + 4 * (i % 4)) % 16) 0)

/-- Each column is multiplied by 3x^3 + x^2 + x + 2. -/
def mixColumns (s : List Byte) : List Byte :=
  (List.range 16).map (fun i =>
    let b (k : Nat) : Byte := s.getD (i / 4 * 4 + (i + k) % 4) 0
    gfMul (b 0) 2 ^^^ gfMul (b 1) 3 ^^^ b 2 ^^^ b 3)

/-- The cipher of a block of 16 bytes. -/
def aes (key block : List Byte) : List Byte :=
  let ks := roundKeys key
  let middle := (List.range 13).foldl (fun s r => xorBytes (mixColumns (shiftRows (s.map subByte))) (ks.getD (r + 1) [])) (xorBytes block (ks.headD []))
  xorBytes (shiftRows (middle.map subByte)) (ks.getD 14 [])

/-! ### GMAC (SP 800-38D) -/

/-- A product in GF(2^128), whose first bit is the most significant. -/
def ghashMul (x y : Nat) : Nat :=
  ((List.range 128).foldl (fun (e : Nat × Nat) i =>
    (if x.testBit (127 - i) then e.1 ^^^ e.2 else e.1, if e.2.testBit 0 then (e.2 / 2) ^^^ (0xE1 * 2 ^ 120) else e.2 / 2)) (0, y)).1

/-- The hash of some blocks of 16 bytes under a subkey. -/
def ghash (h : Nat) (bs : List Byte) : Nat :=
  (List.range (bs.length / 16)).foldl (fun y i => ghashMul (y ^^^ beNat ((bs.drop (16 * i)).take 16)) h) 0

/-- The first 8 bytes of an AES-GMAC tag under a 256-bit key, from a 96-bit initialisation vector and the additional data. The bytes of the
key and of the tag stand in registers and messages in order, the first lowest (00 R3). -/
@[irreducible] def gmac (key : BitVec 256) (iv data : List Byte) : Word :=
  let k := natLe 32 key.toNat
  let h := beNat (aes k (List.replicate 16 0))
  let pad := data ++ List.replicate ((16 - data.length % 16) % 16) 0
  let s := ghash h (pad ++ beBytes 8 (8 * data.length) ++ beBytes 8 0)
  BitVec.ofNat 64 (leNat ((xorBytes (beBytes 16 s) (aes k (iv ++ [0, 0, 0, 1]))).take 8))

/-! ### SHA-384 (FIPS 180-4) -/

/-- The constants of the rounds: the first 64 bits of the fractional parts of the cube roots of the first 80 primes. -/
def shaRounds : List Word :=
  [0x428A2F98D728AE22, 0x7137449123EF65CD, 0xB5C0FBCFEC4D3B2F, 0xE9B5DBA58189DBBC, 0x3956C25BF348B538,
   0x59F111F1B605D019, 0x923F82A4AF194F9B, 0xAB1C5ED5DA6D8118, 0xD807AA98A3030242, 0x12835B0145706FBE,
   0x243185BE4EE4B28C, 0x550C7DC3D5FFB4E2, 0x72BE5D74F27B896F, 0x80DEB1FE3B1696B1, 0x9BDC06A725C71235,
   0xC19BF174CF692694, 0xE49B69C19EF14AD2, 0xEFBE4786384F25E3, 0x0FC19DC68B8CD5B5, 0x240CA1CC77AC9C65]
  ++ [0x2DE92C6F592B0275, 0x4A7484AA6EA6E483, 0x5CB0A9DCBD41FBD4, 0x76F988DA831153B5, 0x983E5152EE66DFAB,
   0xA831C66D2DB43210, 0xB00327C898FB213F, 0xBF597FC7BEEF0EE4, 0xC6E00BF33DA88FC2, 0xD5A79147930AA725,
   0x06CA6351E003826F, 0x142929670A0E6E70, 0x27B70A8546D22FFC, 0x2E1B21385C26C926, 0x4D2C6DFC5AC42AED,
   0x53380D139D95B3DF, 0x650A73548BAF63DE, 0x766A0ABB3C77B2A8, 0x81C2C92E47EDAEE6, 0x92722C851482353B]
  ++ [0xA2BFE8A14CF10364, 0xA81A664BBC423001, 0xC24B8B70D0F89791, 0xC76C51A30654BE30, 0xD192E819D6EF5218,
   0xD69906245565A910, 0xF40E35855771202A, 0x106AA07032BBD1B8, 0x19A4C116B8D2D0C8, 0x1E376C085141AB53,
   0x2748774CDF8EEB99, 0x34B0BCB5E19B48A8, 0x391C0CB3C5C95A63, 0x4ED8AA4AE3418ACB, 0x5B9CCA4F7763E373,
   0x682E6FF3D6B2B8A3, 0x748F82EE5DEFB2FC, 0x78A5636F43172F60, 0x84C87814A1F0AB72, 0x8CC702081A6439EC]
  ++ [0x90BEFFFA23631E28, 0xA4506CEBDE82BDE9, 0xBEF9A3F7B2C67915, 0xC67178F2E372532B, 0xCA273ECEEA26619C,
   0xD186B8C721C0C207, 0xEADA7DD6CDE0EB1E, 0xF57D4F7FEE6ED178, 0x06F067AA72176FBA, 0x0A637DC5A2C898A6,
   0x113F9804BEF90DAE, 0x1B710B35131C471B, 0x28DB77F523047D84, 0x32CAAB7B40C72493, 0x3C9EBE0A15C9BEBC,
   0x431D67C49C100D4C, 0x4CC5D4BECB3E42B6, 0x597F299CFC657E2A, 0x5FCB6FAB3AD6FAEC, 0x6C44198C4A475817]

/-- The initial hash value. -/
def shaInit : List Word :=
  [0xCBBB9D5DC1059ED8, 0x629A292A367CD507, 0x9159015A3070DD17, 0x152FECD8F70E5939, 0x67332667FFC00B31,
   0x8EB44A8768581511, 0xDB0C2E0D64F98FA7, 0x47B5481DBEFA4FA4]

/-- The words of a message schedule, newest first: `n` more after those given. -/
def shaWords : Nat → List Word → List Word
  | 0, ws => ws
  | n + 1, ws =>
    let a := ws.getD 14 0
    let b := ws.getD 1 0
    let s0 := a.rotateRight 1 ^^^ a.rotateRight 8 ^^^ (a >>> 7)
    let s1 := b.rotateRight 19 ^^^ b.rotateRight 61 ^^^ (b >>> 6)
    shaWords n ((s1 + ws.getD 6 0 + s0 + ws.getD 15 0) :: ws)

/-- A round on the working variables a to h, with a constant and a word. -/
def shaRound (v : List Word) (kw : Word × Word) : List Word :=
  match v with
  | [a, b, c, d, e, f, g, h] =>
    let s1 := e.rotateRight 14 ^^^ e.rotateRight 18 ^^^ e.rotateRight 41
    let s0 := a.rotateRight 28 ^^^ a.rotateRight 34 ^^^ a.rotateRight 39
    let t1 := h + s1 + ((e &&& f) ^^^ (~~~e &&& g)) + kw.1 + kw.2
    [t1 + s0 + ((a &&& b) ^^^ (a &&& c) ^^^ (b &&& c)), a, b, c, d + t1, e, f, g]
  | _ => v

/-- The hash value after a block of 128 bytes. -/
def shaBlock (hs : List Word) (block : List Byte) : List Word :=
  let first := (List.range 16).map (fun i => BitVec.ofNat 64 (beNat ((block.drop (8 * i)).take 8)))
  let ws := (shaWords 64 first.reverse).reverse
  hs.zipWith (· + ·) ((shaRounds.zip ws).foldl shaRound hs)

/-- SHA-384 of a message of bytes. -/
@[irreducible] def sha384 (l : List Byte) : BitVec 384 :=
  let m := l ++ [0x80] ++ List.replicate ((128 - (l.length + 17) % 128) % 128) 0 ++ beBytes 16 (8 * l.length)
  let hs := (List.range (m.length / 128)).foldl (fun hs i => shaBlock hs ((m.drop (128 * i)).take 128)) shaInit
  BitVec.ofNat 384 ((hs.take 6).foldl (fun n w => n * 2 ^ 64 + w.toNat) 0)

/-! ### ECDSA on brainpoolP384r1 (RFC 5639, FIPS 186) -/

/-- The prime of the field. -/
def bpP : Nat := 0x8CB91E82A3386D280F5D6F7E50E641DF152F7109ED5456B412B1DA197FB71123ACD3A729901D1A71874700133107EC53
/-- The order of the base point. -/
def bpQ : Nat := 0x8CB91E82A3386D280F5D6F7E50E641DF152F7109ED5456B31F166E6CAC0425A7CF3AB6AF6B7FC3103B883202E9046565
/-- The coefficient of x. -/
def bpA : Nat := 0x7BC382C63D8C150C3C72080ACE05AFA0C2BEA28E4FB22787139165EFBA91F90F8AA5814A503AD4EB04A8C7DD22CE2826
/-- The constant coefficient. -/
def bpB : Nat := 0x04A8C7DD22CE28268B39B55416F0447C2FB77DE107DCD2A62E880EA53EEB62D57CB4390295DBC9943AB78696FA504C11
/-- The base point. -/
def bpG : Nat × Nat :=
  (0x1D1C64F068CF45FFA2A63A81B7C13F6B8847A3E77EF14FE3DB7FCAFE0CBD10E8E826E03436D646AAEF87B2E247D4AF1E,
   0x8ABE1D7520F9C2A45CB1EB8E95CFD55262B70B29FEEC5864E19C054FF99129280E4646217791811142820341263C5315)

/-- A power modulo `m`, by the bits of an exponent of up to 384 bits, the highest first. -/
def powMod (m b e : Nat) : Nat :=
  (List.range 384).foldl (fun r i => let r := r * r % m; if e.testBit (383 - i) then r * b % m else r) 1

/-- A point of the curve in Jacobian coordinates; one whose third is 0 is the point at infinity. -/
structure JPoint where
  x : Nat
  y : Nat
  z : Nat

/-- Twice a point. -/
def JPoint.double (p : JPoint) : JPoint :=
  let yy := p.y * p.y % bpP
  let zz := p.z * p.z % bpP
  let u := 4 * p.x * yy % bpP
  let m := (3 * p.x * p.x + bpA * (zz * zz % bpP)) % bpP
  let x := (m * m + 2 * (bpP - u)) % bpP
  ⟨x, (m * (u + bpP - x) + (bpP - 8 * yy * yy % bpP)) % bpP, 2 * p.y * p.z % bpP⟩

/-- The sum of two points. -/
def JPoint.add (p q : JPoint) : JPoint :=
  if p.z = 0 then q
  else if q.z = 0 then p
  else
    let pz := p.z * p.z % bpP
    let qz := q.z * q.z % bpP
    let u1 := p.x * qz % bpP
    let u2 := q.x * pz % bpP
    let s1 := p.y * (q.z * qz % bpP) % bpP
    let s2 := q.y * (p.z * pz % bpP) % bpP
    if u1 = u2 then (if s1 = s2 then p.double else ⟨1, 1, 0⟩)
    else
      let h := (u2 + bpP - u1) % bpP
      let r := (s2 + bpP - s1) % bpP
      let hh := h * h % bpP
      let hhh := h * hh % bpP
      let v := u1 * hh % bpP
      let x := (r * r + (bpP - hhh) + 2 * (bpP - v)) % bpP
      ⟨x, (r * (v + bpP - x) + (bpP - s1 * hhh % bpP)) % bpP, h * (p.z * q.z % bpP) % bpP⟩

/-- A multiple of a point, by the bits of the factor, the highest first. -/
def JPoint.times (p : JPoint) (k : Nat) : JPoint :=
  (List.range 384).foldl (fun r i => let r := r.double; if k.testBit (383 - i) then r.add p else r) ⟨1, 1, 0⟩

/-- Whether a pair is a point of the curve. -/
def onCurve (k : Nat × Nat) : Bool :=
  decide (k.1 < bpP) && decide (k.2 < bpP) && k.2 * k.2 % bpP == (k.1 * k.1 * k.1 + bpA * k.1 + bpB) % bpP

/-- Whether a signature of a message verifies under a public key, with SHA-384 (FIPS 186). -/
@[irreducible] def ecdsaVerify (key : Nat × Nat) (msg : List Byte) (r s : Nat) : Bool :=
  if !onCurve key || r == 0 || decide (bpQ ≤ r) || s == 0 || decide (bpQ ≤ s) then false
  else
    let w := powMod bpQ s (bpQ - 2)
    let g : JPoint := ⟨bpG.1, bpG.2, 1⟩
    let p := (g.times ((sha384 msg).toNat * w % bpQ)).add ((⟨key.1, key.2, 1⟩ : JPoint).times (r * w % bpQ))
    p.z != 0 && (let zi := powMod bpP p.z (bpP - 2); p.x * (zi * zi % bpP) % bpP % bpQ == r)

end Sys2Proof.Machine
end

