-- ==== Sys2Proof/Machine/Ingress.lean ====
section
/-! DEFINITION. Ingress control blocks: their fields as read, and the judgements of 10 R251 (03 R62, 10 R250-R252). -/

namespace Sys2Proof.Machine

/-- A control block is well formed: geometry in range, ring in the scratchpad and across no slice hole (03 R62). The rule names SLOTS, SLSZ and
the hole; that a BASE which is no multiple of 64 or lies outside the scratchpad is stored, and makes the block not well formed, is the
model's choice (log entry 73). -/
def Icb.wellFormed (i : Icb) : Bool :=
  decide (i.slots ≤ 12) && decide (6 ≤ i.slsz) && decide (i.slsz ≤ 12) && i.base % 64 == 0 && decide (i.base < 0x08000000)
    && decide (i.base % 0x200000 + 2 ^ (i.slots + i.slsz) ≤ 0x180000)

/-- The 32-bit word at an offset of a control block (03 R62). -/
def Icb.read (i : Icb) (off : Nat) : Nat :=
  match off with
  | 0x00 => i.base
  | 0x04 => i.slots * 256 + i.slsz * 16
  | 0x08 => i.head.toNat
  | 0x0C => i.tail.toNat
  | 0x10 => i.refused * 256 + i.reason * 16 + (if i.state = 1 then 4 else 0) + i.state
  | _ => 0

/-- One refused notify more. -/
def Icb.refuse (i : Icb) : Icb := { i with refused := min (i.refused + 1) 0xFFFFFF }

/-- Back to RUN, with REASON and REFUSED cleared. -/
def Icb.run (i : Icb) : Icb := { i with state := 0, reason := 0, refused := 0 }

/-- A notify carrying tail T is judged: the block after it, and whether it was accepted (10 R251). -/
def Icb.notify (i : Icb) (t : BitVec 32) : Icb × Bool :=
  if i.state ≠ 0 then (i.refuse, false)
  else if 2 ^ 31 ≤ (t - i.tail).toNat then ({ i.refuse with state := 1, reason := 3 }, false)
  else if 2 ^ i.slots < (t - i.head).toNat then ({ i.refuse with state := 1, reason := 1 }, false)
  else ({ i with tail := t }, true)

/-- The owner writes HEAD (10 R251). -/
def Icb.writeHead (i : Icb) (v : BitVec 32) : Icb :=
  match i.state with
  | 0 => if (i.tail - v).toNat ≤ 2 ^ i.slots then { i with head := v } else i
  | 1 => { i with head := v }
  | _ => i

/-- The owner writes ERR (10 R251). -/
def Icb.writeErr (i : Icb) (err : Bool) : Icb :=
  match i.state with
  | 0 => if err then { i with state := 1, reason := 2 } else i
  | 1 => if !err ∧ (i.tail - i.head).toNat ≤ 2 ^ i.slots then i.run else i
  | _ => i

/-- The supervisor writes STATE: RUN on a well-formed block, or STOPPED (10 R251, 03 R407). -/
def Icb.supervise (i : Icb) (st : Nat) : Icb :=
  match st with
  | 0 => if i.state = 0 then i else if i.wellFormed then i.run else i
  | 2 => { i with state := 2 }
  | _ => i

/-- Whether the task of a context owns a queue (10 R252). -/
def State.ownsIcb (s : State) (c : CtxId) (q : Nat) : Bool :=
  match s.task c with
  | some t => ((s.die c.die).icb q).owner == some t.launch
  | none => false

/-- A 32-bit store of a context to a control block (03 R62, 10 R252): the state, or a permission fault. -/
def State.icbStore (s : State) (c : CtxId) (q off : Nat) (v : BitVec 32) : Option State :=
  let i := (s.die c.die).icb q
  if off = 0x08 then (if s.ownsIcb c q then some ((s.setIcb c.die q (i.writeHead v)).spoil c) else none)
  else if off = 0x10 then (if s.ownsIcb c q then some ((s.setIcb c.die q (i.writeErr (v.toNat.testBit 2))).spoil c) else none)
  else some (s.spoil c)

end Sys2Proof.Machine
end

