-- ==== Sys2Proof/Machine/Windows.lean ====
section
/-! DEFINITION. Loan windows and multicast groups as an issuer sees them: descriptors (15 R335, R338), request tags (15 R340), posted
writes (03 R60-R61) and notifies (15 R337). -/

namespace Sys2Proof.Machine

/-! ### Window descriptors (15 R335) -/

/-- A window descriptor as its fields. -/
structure Window where
  v : Bool
  r : Bool
  w : Bool
  key : Nat
  tdie : Nat
  tpkg : Nat
  tbase : Nat
  asid : Nat
  size : Nat
  reserved : Bool

/-- The Curator address of window `w`'s descriptor on a die. -/
def windowReg (d w : Nat) : Nat := 0x4300000000 + d * 0x100000 + 0x10000 + 32 * w

/-- The descriptor of a window. -/
def State.window (s : State) (d w : Nat) : Window :=
  let a := s.reg (windowReg d w)
  let b := s.reg (windowReg d w + 8)
  let c := s.reg (windowReg d w + 24)
  { v := wbit a 31, r := wbit a 30, w := wbit a 29, key := wfld a 20 4, tdie := wfld a 9 4, tpkg := wfld a 0 9, tbase := wfld a 32 32,
    asid := wfld b 0 16, size := (wfld b 32 12 + 1) * 65536,
    reserved := wfld a 24 5 != 0 || wfld a 13 7 != 0 || wfld b 16 16 != 0 || wfld b 44 20 != 0 || c != 0 }

/-- Whether a descriptor is valid for tasks of an ASID (15 R335). -/
def Window.valid (x : Window) (pkg asid : Nat) : Bool :=
  x.v && !x.reserved && !(decide (12 ≤ x.tdie) && decide (x.tdie ≤ 14)) && decide (x.size ≤ 2048 * 65536)
    && !(x.tpkg == pkg && decide (x.tdie ≤ 11)) && x.asid == asid

/-- Whether a range of a window may be accessed by a task: validity, size and permission (03 R59). A work-queue notify window takes
XSND only. -/
def State.windowOk (s : State) (c : CtxId) (w off n : Nat) (r wr : Bool) : Bool :=
  let x := s.window c.die w
  x.valid s.pkg (s.asid c) && decide (off + n ≤ x.size) && (!r || x.r) && (!wr || x.w) && x.tdie != 15

/-- TVAL of cause 0x07: window or group number and offset (16 R356). -/
def windowVal (group : Bool) (w off : Nat) : Word := zx ((if group then 2 ^ 40 else 0) + w * 2 ^ 32 + off % 2 ^ 32)

/-! ### Group descriptors (15 R338) -/

/-- A member of a group: target die and package, base and size in bytes. -/
structure Member where
  tdie : Nat
  tpkg : Nat
  sbase : Nat
  size : Nat

/-- The members of a group. -/
def State.members (s : State) (d g : Nat) : List Member :=
  (List.range (wfld (s.groupWord d g) 11 4 + 1)).map (fun m =>
    let a := s.reg (groupReg d g + 0x10 + 16 * m)
    let b := s.reg (groupReg d g + 0x18 + 16 * m)
    ⟨wfld a 9 4, wfld a 0 9, wfld a 32 32, (wfld b 0 12 + 1) * 65536⟩)

/-- Whether a group is valid for tasks of an ASID (15 R338). -/
def State.groupOk (s : State) (d g asid : Nat) : Bool :=
  let w := s.groupWord d g
  wbit w 31 && wfld w 11 4 != 15 && wfld w 32 16 == asid
    && (s.members d g).all (fun m => decide (m.tdie ≤ 11) && m.tpkg != s.pkg)

/-! ### Partitions and the keys of slots (15 R330-R331) -/

/-- The dies of a partition (15 R330). -/
def State.partDies (s : State) (p : Nat) : List Nat :=
  let w := s.fabPkg (16 * p)
  (List.range 12).filter (fun d => wbit w 8 && decide (wfld w 0 4 ≤ d) && decide (d ≤ wfld w 4 4))

/-- The partition that holds a die. -/
def State.partOf (s : State) (d : Nat) : Option Nat := (List.range 4).find? (fun p => (s.partDies p).contains d)

/-- The domain key a die's slots carry (15 R331); a die outside every partition has none. -/
def State.carriedKey (s : State) (d : Nat) : Word :=
  match s.partOf d with
  | some p => s.fabPkg (16 * p + 8)
  | none => 0

/-! ### Request tags (15 R340) -/

/-- TOUT of a die in reference cycles (15 R334). -/
def State.tout (s : State) (d : Nat) : Nat := wfld (s.fab d 0x48) 0 32 * 2400
/-- The timeout of a station's requests; the Curator's keeps the default (log entry 23). -/
def State.stationTout (s : State) (st : Nat) : Nat := if st < 12 then s.tout st else 200 * 2400

/-- The generation a tag is issued with next, its last one plus 1, unless it was issued within twice TOUT. -/
def State.freshGen (s : State) (d tag : Nat) : Option Nat :=
  let mine := s.tagTimes.filter (fun e => e.1 == d && e.2.1 == tag)
  let g := match mine.head? with | some e => (e.2.2.1 + 1) % 16 | none => 0
  if mine.any (fun e => e.2.2.1 == g && decide (s.cycle ≤ e.2.2.2 + 2 * s.stationTout d)) then none else some g

/-- A free tag of a station with its generation. -/
def State.freeTag (s : State) (d : Nat) : Option (Nat × Nat) :=
  match (List.range 4096).find? (fun t =>
      !(s.reqs.any (fun r => r.station == d && r.tag == t)) && (s.freshGen d t).isSome) with
  | some t => (s.freshGen d t).map (fun g => (t, g))
  | none => none

/-- Whether a request leaves the package. -/
def State.leaves (s : State) (p : Path) : Bool := p.tpkg != s.pkg

/-- Whether the slots of a partition, none for the Curator's, take a link: it carries them (15 R334, R343). -/
def Link.carries (l : Link) (part : Option Nat) : Bool :=
  match part with
  | some x => l.parts.testBit x
  | none => true

/-- The link that a slot of a partition takes at a hop of its way: of those that lead on the first that carries the partition, as Curator S routes
by the masks of the links (15 R343), else the first. -/
def State.linkAt (s : State) (part : Option Nat) (station : Nat) (p : Path) (hop : Nat) : Nat :=
  let l := (List.range 16).map (Config.linkOf s.pkg station p.tpkg p.tdie hop)
  (l.find? (fun x => (s.link x).carries part)).getD (l.headD 0)

/-- The links that a slot of a station takes on its way (log entry 72). -/
def State.route (s : State) (station : Nat) (p : Path) : List Nat := (List.range 8).map (s.linkAt (s.partOf station) station p)

/-- Whether the wing's ring is routed round the position of a request's target: BYPASS skips it, or a package fitted there has not passed stage 7
yet (18 R396). -/
def State.skipped (s : State) (p : Path) : Bool :=
  p.tpkg / 24 == s.pkg / 24
    && (s.service.bypass.testBit (p.tpkg % 24) || (s.service.left.testBit (p.tpkg % 24) && !Config.stage7 p.tpkg s.cycle))

/-- Whether the slots of a station's partition are turned away by the mask of a link on their way (15 R343). -/
def State.masked (s : State) (station : Nat) (p : Path) : Bool :=
  match s.partOf station with
  | some x => (s.route station p).any (fun l => !(s.link l).carries (some x))
  | none => decide (station < 12)

/-- Whether a request that a station sends now is denied on its way: it carries no key to a die, its package id names no position of a wing or
one that the ring is routed round (15 R331, R333, 18 R396), or its partition is not in the mask of a link it takes (15 R343). -/
def State.deniedPath (s : State) (station : Nat) (p : Path) : Bool :=
  (decide (station < 12) && p.tdie != 15 && s.carriedKey station == 0)
    || (s.leaves p && (decide (432 ≤ p.tpkg) || s.skipped p)) || s.masked station p

/-- Whether a link takes no slot: it has failed (15 R343), refuses all traffic as busy (15 R342), or is not in service (18 R391). -/
def Link.closed (l : Link) : Bool := l.failed || l.down || decide (2 ^ 40 ≤ l.groups)

/-- Whether nothing of a request of a station comes through any more: a link on its way takes no slot, or the ring is routed round its target since
it was sent (18 R396). -/
def State.linkStopped (s : State) (station : Nat) (p : Path) : Bool :=
  (s.route station p).any (fun l => (s.link l).closed) || (s.leaves p && s.skipped p)

/-- The target bytes that a message names. -/
def Out.span : Out → Option (Nat × Nat)
  | .load _ _ a n _ _ _ => some (a, n)
  | .store _ _ a d _ _ _ => some (a, d.length)
  | .atomic _ _ a n _ _ _ _ _ _ _ => some (a, n)
  | .notify _ _ q _ _ _ _ _ _ => some (0x0C00000C + 64 * q, 4)
  | _ => none

/-- Opens a request under a tag. -/
def State.openReq (s : State) (d tag gen : Nat) (p : Path) (o : ReqOwner) (span : Option (Nat × Nat)) (bridged : Bool) : State :=
  { s with reqs := s.reqs ++ [{ station := d, tag := tag, gen := gen, at_ := s.cycle, path := p, denied := s.deniedPath d p, owner := o, bounces := 0,
                                retryAt := none, span := span, bridged := bridged }],
           tagTimes := (d, tag, gen, s.cycle) :: s.tagTimes.filter (fun e => !(e.1 == d && e.2.1 == tag && e.2.2.1 == gen)) }

/-- Whether a slot is held at its source behind a bounced one of the same core to the same die, until that is taken (15 R333). -/
def State.heldBehind (s : State) (p : Path) : Bool := p.core.isSome && s.reqs.any (fun r => r.path == p && r.retryAt.isSome)

/-- Sends a request of a station under a fresh tag; none while no tag is free or a bounced slot holds it. -/
def State.request (s : State) (d : Nat) (key : Word) (p : Path) (o : ReqOwner) (mk : Nat → Nat → Out) : Option State :=
  if s.heldBehind p then none
  else (s.freeTag d).map (fun t => (s.openReq d t.1 t.2 p o (mk t.1 t.2).span false).send (.slot s.pkg key (mk t.1 t.2)))

/-- Sends a request of a core. -/
def State.ask (s : State) (c : CoreId) (tpkg tdie : Nat) (o : ReqOwner) (mk : Nat → Nat → Out) : Option State :=
  s.request c.die (s.carriedKey c.die) ⟨some c, tpkg, tdie⟩ o mk

/-! ### Lending entries (15 R331, R336) -/

/-- Whether a carried domain key reaches a die: it is live and its partition has the same non-zero key. -/
def State.keyReaches (s : State) (d : Nat) (key : Word) : Bool :=
  s.service.livedie.testBit d && key != 0 && (match s.partOf d with | some p => s.fabPkg (16 * p + 8) == key | none => false)

/-- A lending entry: read, write, notify, any source, source package, base, size. -/
structure Lend where
  r : Bool
  w : Bool
  n : Bool
  any : Bool
  spkg : Nat
  base : Nat
  size : Nat

/-- The valid lending entries of a die. -/
def State.lending (s : State) (d : Nat) : List Lend :=
  (List.range 16).filterMap (fun j =>
    let a := s.fab d (0x20000 + 32 * j)
    let b := s.fab d (0x20000 + 32 * j + 8)
    if wbit a 31 then some ⟨wbit a 30, wbit a 29, wbit a 28, wbit a 27, wfld a 0 9, wfld a 32 32, (wfld b 0 12 + 1) * 65536⟩ else none)

/-- Whether some entry of a die lends a range to a source with the rights needed. -/
def State.lends_ (s : State) (d src a n : Nat) (r w nt : Bool) : Bool :=
  (s.lending d).any (fun l =>
    (l.any || l.spkg == src) && decide (l.base ≤ a) && decide (a + n ≤ l.base + l.size) && (!r || l.r) && (!w || l.w) && (!nt || l.n))

/-- Whether an inbound access of a range is admitted (15 R336). -/
def State.admits (s : State) (d src : Nat) (key : Word) (a n : Nat) (r w : Bool) : Bool :=
  s.keyReaches d key && s.lends_ d src a n r w false && sLoc a n == .scratch

/-! ### Combining (15 R341) -/

/-- Whether a slot of a station reaches the Curator's station clockwise: 13 stations on the gallery ring, the Curator's the last (15 R332-R333). -/
def fromClockwise (station : Nat) : Bool := decide (12 - station ≤ station + 1)

/-- A request arrives at a bridge station: it joins the open window of its target under its domain key (15 R331), or opens one. -/
def State.combine (s : State) (src : Nat) (key : Word) (tpkg tdie addr size id : Nat) (cw : Bool) (v : Word) : State :=
  let open_ (w : Combining) : Bool :=
    w.tpkg == tpkg && w.tdie == tdie && w.addr == addr && w.size == size && w.key == key && w.sent.isNone && decide (s.cycle < w.openAt + 64)
      && decide (w.reqs.length < 16)
  let r : Nat × Bool × Nat × Nat × Word := (s.cycle, cw, src, id, v)
  match s.combining.find? open_ with
  | some w => { s with combining := s.combining.map (fun x => if x.id = w.id then { w with reqs := w.reqs ++ [r] } else x) }
  | none => { s.named with combining := s.combining ++ [⟨s.nextId, tpkg, tdie, addr, size, key, s.cycle, [r], none⟩] }

/-- Sends a relaxed fetch-and-add of a core to another package: it goes to the package's bridge station, whose combining window it joins in the
cycle it is sent (log entry 109), under its tag and generation; one that is denied on its way goes no further. -/
def State.askFadd (s : State) (c : CoreId) (tpkg tdie : Nat) (o : ReqOwner) (addr size : Nat) (v : Word) : Option State :=
  let p : Path := ⟨some c, tpkg, tdie⟩
  if s.heldBehind p then none
  else
    (s.freeTag c.die).map (fun t =>
      let s := s.openReq c.die t.1 t.2 p o (some (addr, size)) true
      if s.deniedPath c.die p then s
      else s.combine (s.pkg * 16 + c.die) (s.carriedKey c.die) tpkg tdie addr size (t.1 * 16 + t.2) (fromClockwise c.die) v)

/-! ### Posted writes (03 R60-R61, R249) -/

/-- LWALLOW of a window on a core (05 R121). -/
def State.allowance (s : State) (c : CoreId) (w : Nat) : Nat := (s.core c).lwallow.getD w 1024

/-- A posted write as its agent issues it: the access it is part of, the window (or 16 + group) and offset, the target bytes, and whether
it is a strong write. -/
structure PostTo where
  access : Option Nat
  win : Nat
  off : Nat
  tpkg : Nat
  tdie : Nat
  addr : Nat
  len : Nat
  strong : Bool

/-- A posted write as its core counts it. -/
def State.postedAs (s : State) (a : AgentId) (p : PostTo) (id tag gen : Nat) (note : List Byte) : State :=
  let launch := match s.task a.ctx with | some t => t.launch | none => 0
  s.modCore a.coreId (fun k => { k with posted := k.posted ++
    [⟨id, a, p.win, p.off, p.tpkg, p.tdie, p.addr, p.len, p.strong, a.die, tag, gen, launch, false, p.access, note⟩] })

/-- Sends one posted message of an agent under a fresh tag; none while a tag or the order of slots holds it. -/
def State.postOut (s : State) (a : AgentId) (p : PostTo) (mk : Nat → Nat → Out) : Option State :=
  match s.freeTag a.die with
  | none => none
  | some (tag, gen) =>
    (s.named.ask a.coreId p.tpkg p.tdie (.posted a.coreId s.nextId) mk).map (fun u => u.postedAs a p s.nextId tag gen [])

/-- Sends a work-queue notify to the package's own admissions, which judge it as it is acknowledged (15 R335, 14 R293). -/
def State.postNote (s : State) (a : AgentId) (p : PostTo) (note : List Byte) : Option State :=
  let way : Path := ⟨some a.coreId, p.tpkg, p.tdie⟩
  if s.heldBehind way then none
  else
    (s.freeTag a.die).map (fun t =>
      (s.named.openReq a.die t.1 t.2 way (.posted a.coreId s.nextId) none false).postedAs a p s.nextId t.1 t.2 note)

/-- Posts one write of an agent to its target (at most 512 bytes). -/
def State.postWrite (s : State) (a : AgentId) (p : PostTo) (data : List (Option Byte)) : Option State :=
  s.postOut a p (fun tag gen => .store p.tpkg p.tdie p.addr data a.die tag gen)

/-- Whether a core has posted writes outstanding to a target die through any window (10 R250). -/
def State.postedTo (s : State) (c : CoreId) (tpkg tdie : Nat) : Bool :=
  (s.core c).posted.any (fun p => decide (p.win < 16) && p.tpkg == tpkg && p.tdie == tdie)

/-- The authentication tag of an ingress notify (15 R337). -/
def notifyMac (key : BitVec 256) (nonce : Word) (spkg tdie q : Nat) (t : BitVec 32) : Word :=
  gmac key (beBytes 8 nonce.toNat ++ beBytes 4 0) (beBytes 2 spkg ++ beBytes 1 tdie ++ beBytes 1 q ++ beBytes 4 t.toNat)

/-- The ingress queue whose TAIL word a whole 4-byte write at a target address meets (15 R337). -/
def tailQueue (addr n : Nat) : Option Nat :=
  if 0x0C000000 ≤ addr ∧ addr < 0x0C001000 ∧ addr % 64 = 0x0C ∧ n = 4 then some ((addr - 0x0C000000) / 64) else none

/-- Sends the ingress notify that a TAIL store through a window is carried as (15 R337), as a posted write, under a window key slot. -/
def State.postNotify (s : State) (a : AgentId) (p : PostTo) (slot q : Nat) (t : BitVec 32) : Option State :=
  let nonce := s.reg (windowReg a.die p.win + 16)
  let key := s.key256 (0x4300000000 + a.die * 0x100000 + 0x11000 + 32 * slot)
  let mac := notifyMac key nonce s.pkg p.tdie q t
  (s.postOut a p (fun tag gen => .notify p.tpkg p.tdie q t nonce mac a.die tag gen)).map
    (fun s => s.setReg (windowReg a.die p.win + 16) (nonce + 1))

/-- Issues one posted piece of an engine's access, as a notify where it falls on a TAIL word; none while the allowance, the tags or
R250's order hold it. -/
def State.sendPiece (s : State) (a : AgentId) (id : Nat) (p : Piece) : Option State :=
  let dest : PostTo := ⟨some id, p.win, p.off, p.tpkg, p.tdie, p.addr, p.data.length, false⟩
  if s.limitOf a.coreId p.win < s.postedCount a.coreId p.win + 1 then none
  else if p.tdie = 15 ∧ p.tpkg = s.pkg then s.postNote a dest (p.data.map (fun b => b.getD 0))
  else if p.tdie = 15 then
    s.postOut a dest (fun tag gen => .workNotify p.tpkg (p.data.map (fun b => b.getD 0)) a.die tag gen)
  else
    match (if p.win < 16 ∧ p.data.all Option.isSome then tailQueue p.addr p.data.length else none) with
    | some q =>
      if s.postedTo a.coreId p.tpkg p.tdie then none
      else s.postNotify a dest p.key q (BitVec.ofNat 32 (leNat (p.data.map (fun b => b.getD 0))))
    | none => s.postWrite a dest p.data

/-- Sends posted pieces in order as far as they may issue; what is left stays (03 R60). -/
def State.sendPieces (s : State) (a : AgentId) (id : Nat) : List Piece → State × List Piece
  | [] => (s, [])
  | p :: t =>
    match s.sendPiece a id p with
    | none => (s, p :: t)
    | some s' => s'.sendPieces a id t

end Sys2Proof.Machine
end

