-- ==== Sys2Proof/Machine/ScuMem.lean ====
section
/-! DEFINITION. The SCU's memory accesses: loads and stores, atomics, compare and swap, and fences (06 R146-R150, 03 R52-R61). -/

namespace Sys2Proof.Machine

/-- Sign- or zero-extends the bytes a load returned (06 R146). -/
def loadValue (sign : Bool) (bs : List Byte) : Word :=
  if sign then wordOfInt (signed (8 * bs.length) (leNat bs)) else zx (leNat bs)

/-- Bits [63:56] of a VA are set (03 R52). -/
def vaBad (a : Word) : Bool := wfld a 56 8 != 0

/-- Maps an aligned scalar VA access; absent pages park, missing rights trap, an uncorrectable word traps a reader (06 R146, 03 R72). -/
def State.scuVA (s : State) (a : Word) (n : Nat) (r w : Bool) (k : List Nat → State → ScuOut) : ScuOut :=
  if vaBad a then .trap 0x05 a s
  else if a.toNat % n ≠ 0 then .trap 0x03 a s
  else
    match s.mapVA s.here.coreId .scu (s.asid s.here) a.toNat n r w with
    | .fault cause va s' => .trap cause (zx va) s'
    | .absent va kind s' => s'.parkScu (s'.asid s'.here) va kind w
    | .busy s' => .stall s'
    | .ok as s' => if r ∧ (s'.eccHit as).isSome then .trap 0x08 a s' else k as s'

/-- A blocking access through a loan window (03 R60): sent once, then waits for the reply; refused or timed out, it traps with cause
0x07. `ask` sends the request to the window's target under the context's name; `rmw` says that it is an atomic or a CAS. -/
def State.scuRemote (s : State) (w off : Nat) (rmw : Bool) (ask : Window → ReqOwner → State → Option State) (k : List Byte → State → ScuOut) :
    ScuOut :=
  let c := s.here
  match (s.ctx c).remote with
  | some r =>
    match r.answer with
    | none => .block s
    | some none => .trap 0x07 (windowVal false r.win r.off) s
    | some (some bs) => k bs s
  | none =>
    let y := s.window c.die w
    match s.freeTag c.die, ask y (.scu c) s with
    | some (tag, gen), some s' => .block (s'.modCtx c (fun x => { x with remote := some ⟨c.die, tag, gen, w, off, none, rmw⟩ }))
    | _, _ => .block s

/-- The local bytes of an aligned scalar S-space access, or why there are none. `load` tells a plain load from every other access;
`atomic` an atomic. -/
inductive SAcc where
  | bytes (as : List Nat)
  | icb (q off : Nat)
  | window (w off : Nat)
  | wait
  | trap (cause : Nat) (v : Word)

/-- The checks of a scalar S-space access of `n` bytes (03 R54-R58, 06 R147, 13 R271). -/
def State.scuS (s : State) (a n : Nat) (load atomic : Bool) : SAcc :=
  let c := s.here
  if a % n ≠ 0 then .trap 0x03 (zx a)
  else
    match sLoc a n with
    | .hole => .trap 0x04 (zx a)
    | .scratch => if inDocentArea a n && !load && !s.docent then .trap 0x06 (zx a) else .bytes (s.sAddrs c a n)
    | .icb q off => if atomic || n != 4 then .trap 0x06 (zx a) else .icb q off
    | .tile _ _ =>
      match s.tileCheck c a n with
      | .error e => .trap e.1 e.2
      | .ok _ => if (tilesOf a n).any (s.exchanging c) then .wait else .bytes (s.sAddrs c a n)
    | .window w off => .window w off

/-- The size of an SM access (06 R146). -/
def smSize (z : Nat) : Nat := 2 ^ z
/-- The address of an SM access. -/
def smAddr (x : Ctx) (a o z : Nat) : Word := x.reg a + wordOfInt (signed 5 o * (smSize z : Int))

/-- Writes a loaded value into g[d]. -/
def State.loaded (s : State) (d : Nat) (v : Word) : ScuOut := .done (s.modCtx s.here (fun x => x.setReg d v))

/-- The bytes that a load of some order reads, narrow or not (04 R75, R78). -/
def State.readAs (s : State) (ord : Nat) (narrow : Bool) (as : List Nat) : List Byte × State :=
  match ord with
  | 0 => s.see s.agent as
  | 1 => s.seeStrong s.agent as
  | _ => s.seeAcquire s.agent as narrow

/-- The store of a load's order's counterpart to local bytes from an address: weak, relaxed or release (04 R75, R78). -/
def State.writeOrd (s : State) (ord : Nat) (narrow isS : Bool) (addr : Nat) (cs : List (Nat × Byte)) : State :=
  match ord with
  | 0 => s.write s.agent (spotsAt isS addr cs)
  | _ => s.writeStrong s.agent (ord == 3) narrow isS addr cs

/-- LD and LDN (06 R146). -/
def State.loadVA (s : State) (gd : Guard) (d a o z ord sc : Nat) (sign : Bool) : Res :=
  s.scu gd [d, a] 2 (fun s => s.access false false (fun s =>
    s.scuVA (smAddr (s.ctx s.here) a o z) (smSize z) true false (fun as s =>
      let r := s.readAs ord (sc == 1) as
      r.2.loaded d (loadValue sign r.1))))

/-- SLD and SLDN (06 R146-R147); a core-scope access through a window is illegal (04 R78). That an access with more than one fault takes the
alignment's first, then this 0x01, then the window's 0x07 is the model's choice (log entry 74). -/
def State.loadS (s : State) (gd : Guard) (d a o z ord sc w : Nat) (sign : Bool) : Res :=
  s.scu gd [d, a] 2 (fun s => s.access false false (fun s =>
    let addr := (smAddr (s.ctx s.here) a o z).toNat % 2 ^ 32
    let n := smSize z
    match s.scuS addr n true false with
    | .trap cause v => .trap cause v s
    | .wait => .stall s
    | .bytes as =>
      if (s.eccHit as).isSome then .trap 0x08 (zx addr) s
      else
        let r := s.readAs ord (sc == 1) as
        r.2.loaded d (loadValue sign r.1)
    | .icb q off => s.loaded d (loadValue sign (natLe 4 (((s.die s.here.die).icb q).read off)))
    | .window win off =>
      if sc = 1 then .trap 0x01 (zx w) s
      else if !(s.ctx s.here).remote.isSome && !s.windowOk s.here win off n true false then .trap 0x07 (windowVal false win off) s
      else
        s.scuRemote win off false
          (fun x o s => s.ask s.here.coreId x.tpkg x.tdie o (fun tag gen => .load x.tpkg x.tdie (x.tbase + off) n s.here.die tag gen))
          (fun bs s => s.loaded d (loadValue sign (bs.take n)))))

/-- ST (06 R146). -/
def State.storeVA (s : State) (gd : Guard) (d a o z ord sc : Nat) : Res :=
  s.scu gd [d, a] 2 (fun s => s.access (ord != 0) (ord == 3) (fun s =>
    let x := s.ctx s.here
    s.scuVA (smAddr x a o z) (smSize z) false true (fun as s =>
      .done (s.writeOrd ord (sc == 1) false (smAddr x a o z).toNat (as.zip (natLe (smSize z) (x.reg d).toNat))))))

/-- The report owed for a refused posted write through a window, if any (03 R61). -/
def Ctx.reportFor (x : Ctx) (win : Nat) : Option Word := x.reports.find? (fun v => wfld v 32 8 == win)

/-- SST (06 R146-R147): local bytes, a control-block word, or a posted window write; a release store through a window waits for that
window's count to drain, and for no other (03 R60, 04 R94), and a store on a peer's TAIL goes out as a notify (15 R337). -/
def State.storeS (s : State) (gd : Guard) (d a o z ord sc w : Nat) : Res :=
  s.scu gd [d, a] 2 (fun s => s.access (ord != 0) false (fun s =>
    let c := s.here
    let v := (s.ctx c).reg d
    let addr := (smAddr (s.ctx c) a o z).toNat % 2 ^ 32
    let n := smSize z
    match s.scuS addr n false false with
    | .trap cause t => .trap cause t s
    | .wait => .stall s
    | .bytes as => s.access false (ord == 3) (fun s => .done (s.writeOrd ord (sc == 1) true addr (as.zip (natLe n v.toNat))))
    | .icb q off =>
      s.access false (ord == 3) (fun s =>
        match (if ord = 3 then s.performOwn s.agent else s).icbStore c q off (BitVec.ofNat 32 v.toNat) with
        | some s' => .done s'
        | none => .trap 0x06 (zx addr) s)
    | .window win off =>
      if sc = 1 then .trap 0x01 (zx w) s
      else if !s.windowOk c win off n false true then .trap 0x07 (windowVal false win off) s
      else
        match (if ord = 3 then (s.ctx c).reportFor win else none) with
        | some t => .trap 0x07 t (s.modCtx c (fun x => { x with reports := x.reports.erase t }))
        | none =>
          let x := s.window c.die win
          let ta := x.tbase + off
          let dest : PostTo := ⟨none, win, off, x.tpkg, x.tdie, ta, n, ord != 0⟩
          let tail := (tailQueue ta n).isSome
          if ord = 3 ∧ s.postedCount c.coreId win ≠ 0 then .stall s
          else if s.allowance c.coreId win < s.postedCount c.coreId win + 1 then .stall s
          else if tail ∧ s.postedTo c.coreId x.tpkg x.tdie then .stall s
          else
            match (if tail then s.postNotify s.agent dest x.key ((ta - 0x0C000000) / 64) (BitVec.ofNat 32 v.toNat)
                   else s.postWrite s.agent dest ((natLe n v.toNat).map some)) with
            | some s' => .done (if ord = 3 then s'.performOwn s.agent else s')
            | none => .stall s))

def execLd (gd : Guard) (d a o z r sc : Nat) (s : State) : Res := s.loadVA gd d a o z r sc true
def execLdn (gd : Guard) (d a o z r sc : Nat) (s : State) : Res := s.loadVA gd d a o z r sc false
def execSt (gd : Guard) (d a o z r sc : Nat) (s : State) : Res := s.storeVA gd d a o z r sc
def execSld (gd : Guard) (d a o z r sc : Nat) (s : State) : Res := s.loadS gd d a o z r sc (encodeWord (.sld gd d a o z r sc)) true
def execSldn (gd : Guard) (d a o z r sc : Nat) (s : State) : Res := s.loadS gd d a o z r sc (encodeWord (.sldn gd d a o z r sc)) false
def execSst (gd : Guard) (d a o z r sc : Nat) (s : State) : Res := s.storeS gd d a o z r sc (encodeWord (.sst gd d a o z r sc))

/-! ### Atomics (06 R148-R149) -/

/-- The new value of an atomic from the old one and the operand, at width `w` bits (06 R148). -/
def amoNew (fn w old v : Nat) : Nat :=
  match fn with
  | 0 => (old + v) % 2 ^ w
  | 1 => v
  | 2 => old &&& v
  | 3 => old ||| v
  | 4 => if signed w old < signed w v then v else old
  | 5 => if signed w v < signed w old then v else old
  | 6 => if old < v then v else old
  | _ => if v < old then v else old

/-- The order of an atomic or CAS (06 R148-R149): whether it acquires when it writes, whether it is then a release, and whether it acquires when its
comparison fails. -/
structure RmwOrder where
  acq : Bool
  rel : Bool
  failAcq : Bool

/-- Performs an atomic on local bytes (one step, 04 R77, R95). -/
def State.amoLocal (s : State) (isS : Bool) (as : List Nat) (d : Nat) (v : Word) (k : RmwOrder) (new : Nat → Option Nat) : ScuOut :=
  if (s.eccHit as).isSome then .trap 0x08 v s
  else
    let r := s.seeRmw s.agent as
    let old := leNat r.1
    let gain (b : Bool) : State := if b then r.2.acquire s.agent (Holder.atBytes as s.agent.coreId false) else r.2
    let s' := match new old with
      | some x => (gain k.acq).writeRmw s.agent k.rel isS v.toNat (as.zip (natLe as.length x))
      | none => gain k.failAcq
    (s'.spoil s.here).loaded d (zx old)

/-- An atomic in VA: both rights (06 R148). -/
def State.amoVA (s : State) (gd : Guard) (d a : Nat) (touch : List Nat) (n : Nat) (k : RmwOrder) (new : Ctx → Nat → Option Nat) : Res :=
  s.scu gd touch 2 (fun s => s.access true k.rel (fun s =>
    let x := s.ctx s.here
    s.scuVA (x.reg a) n true true (fun as s => s.amoLocal false as d (x.reg a) k (new x))))

/-- Why a window refuses an atomic at issue, if it does: 0x07 for a descriptor or an offset that 03 R59 refuses, 0x06 for a missing right
(06 R148); of both, 0x07 (log entry 74). -/
def State.amoRefused (s : State) (addr win off n : Nat) : Option (Nat × Word) :=
  let y := s.window s.here.die win
  if !s.windowOk s.here win off n false false then some (0x07, windowVal false win off)
  else if !(y.r && y.w) then some (0x06, zx addr)
  else none

/-- Whether an atomic is relaxed. -/
def RmwOrder.relaxed (k : RmwOrder) : Bool := !k.acq && !k.rel

/-- An atomic in S-space; through a window it is performed at the target's home and blocks (06 R148), and a release takes the report owed
for the window (03 R61). -/
def State.amoS (s : State) (gd : Guard) (d a : Nat) (touch : List Nat) (n fn : Nat) (k : RmwOrder) (arg arg2 : Ctx → Word)
    (new : Ctx → Nat → Option Nat) : Res :=
  s.scu gd touch 2 (fun s => s.access true k.rel (fun s =>
    let c := s.here
    let x := s.ctx c
    let addr := (x.reg a).toNat % 2 ^ 32
    match s.scuS addr n false true with
    | .trap cause v => .trap cause v s
    | .wait => .stall s
    | .icb _ _ => .trap 0x06 (zx addr) s
    | .bytes as => s.amoLocal true as d (zx addr) k (new x)
    | .window win off =>
      match (if x.remote.isSome then none else s.amoRefused addr win off n), (if k.rel then x.reportFor win else none) with
      | some f, _ => .trap f.1 f.2 s
      | none, some t => .trap 0x07 t (s.modCtx c (fun x => { x with reports := x.reports.erase t }))
      | none, none =>
        s.scuRemote win off true
          (fun y o s =>
            if fn = 0 ∧ k.relaxed then s.askFadd c.coreId y.tpkg y.tdie o (y.tbase + off) n (zx (wfld (arg x) 0 (8 * n)))
            else s.ask c.coreId y.tpkg y.tdie o (fun tag gen => .atomic y.tpkg y.tdie (y.tbase + off) n fn (arg x) (arg2 x)
              (fn != 8 && k.relaxed) c.die tag gen))
          (fun bs s => (s.spoil s.here).loaded d (zx (leNat (bs.take n))))))

/-- The width of an atomic in bytes. -/
def saSize (z : Nat) : Nat := if z = 1 then 8 else 4

def execAmo (gd : Guard) (d a b f z o : Nat) (s : State) : Res :=
  s.amoVA gd d a [d, a, b] (saSize z) ⟨o != 0, false, false⟩
    (fun x old => some (amoNew f (8 * saSize z) old ((x.reg b).toNat % 2 ^ (8 * saSize z))))
def execAmor (gd : Guard) (d a b f z o : Nat) (s : State) : Res :=
  s.amoVA gd d a [d, a, b] (saSize z) ⟨o != 0, true, false⟩
    (fun x old => some (amoNew f (8 * saSize z) old ((x.reg b).toNat % 2 ^ (8 * saSize z))))
def execSamo (gd : Guard) (d a b f z o : Nat) (s : State) : Res :=
  s.amoS gd d a [d, a, b] (saSize z) f ⟨o != 0, false, false⟩ (fun x => x.reg b) (fun _ => 0)
    (fun x old => some (amoNew f (8 * saSize z) old ((x.reg b).toNat % 2 ^ (8 * saSize z))))
def execSamor (gd : Guard) (d a b f z o : Nat) (s : State) : Res :=
  s.amoS gd d a [d, a, b] (saSize z) f ⟨o != 0, true, false⟩ (fun x => x.reg b) (fun _ => 0)
    (fun x old => some (amoNew f (8 * saSize z) old ((x.reg b).toNat % 2 ^ (8 * saSize z))))

/-- CAS and SCAS (06 R149): g[d] is the expected value, g[b] the new one; a failed comparison writes nothing. -/
def execCas (gd : Guard) (d a b p f z sp : Nat) (s : State) : Res :=
  let w := 8 * saSize z
  let k : RmwOrder := ⟨p % 2 == 1, decide (2 ≤ p), f == 1⟩
  let new (x : Ctx) (old : Nat) : Option Nat :=
    if old = (x.reg d).toNat % 2 ^ w then some ((x.reg b).toNat % 2 ^ w) else none
  if sp = 0 then s.amoVA gd d a [d, a, b] (saSize z) k new
  else s.amoS gd d a [d, a, b] (saSize z) 8 k (fun x => x.reg d) (fun x => x.reg b) new

/-! ### Fences (06 R150, 04 R83) -/

/-- The strong posted writes of the running context that are not performed yet. -/
def State.strongPosted (s : State) : List Nat := (s.ownPosted.filter (fun p => p.strong)).map (fun p => p.id)

/-- FENCE.FULL holds every later access until the posted strong writes before it are performed; the late ones are performed as it issues. -/
def State.fenceFull (s : State) : State :=
  (s.perform (fun w => w.by_ == some s.agent && w.strong)).modCtx s.here (fun x => { x with fenced := s.strongPosted })

/-- FENCE.ALL within the die: as FENCE.FULL, and every earlier write of the context is performed and covered (04 R83, R88). -/
def State.fenceAll (s : State) : State := (s.coverAll s.agent).fenceFull

/-- FENCE.WW holds the later strong writes. -/
def execFenceWw (gd : Guard) (s : State) : Res :=
  s.scu gd [] 2 (fun s => .done (s.modCtx s.here (fun x => { x with fencedW := s.strongPosted, epoch := x.epoch + 1 })))
def execFenceFull (gd : Guard) (s : State) : Res := s.scu gd [] 2 (fun s => .done s.fenceFull)
def execFenceAllCore (gd : Guard) (s : State) : Res := s.scu gd [] 2 (fun s => .done s.fenceAll)
def execFenceAllDie (gd : Guard) (s : State) : Res := s.scu gd [] 2 (fun s => .done s.fenceAll)

/-- FENCE.ALL.domain waits for the acknowledgement of every posted window write of the context, and reports a refused one
(06 R150, 03 R61). -/
def execFenceAllDomain (gd : Guard) (s : State) : Res :=
  s.scu gd [] 2 (fun s =>
    match (s.ctx s.here).reports with
    | t :: _ => .trap 0x07 t (s.modCtx s.here (fun x => { x with reports := x.reports.erase t }))
    | [] => if s.ownPosted.isEmpty then .done (s.coverAll s.agent) else .stall s)

end Sys2Proof.Machine
end

