-- ==== Sys2Proof/Machine/ScuSys.lean ====
section
/-! DEFINITION. Bindings, semaphores, command enqueue, copies, state registers and the system instructions of the SCU
(06 R151-R163, 13 R285-R289). -/

namespace Sys2Proof.Machine

/-! ### Regions and the binding table (04 R86-R87, 06 R151-R152) -/

/-- The space a byte range lies in (0 VA, 1 local S-space, 2 + w loan window w), if it lies wholly in one. -/
def spaceOf (sp a n : Nat) : Option Nat :=
  if sp = 0 then (if a + n ≤ 2 ^ 56 then some 0 else none)
  else if a + n ≤ 0x80000000 then some 1
  else if 0x80000000 ≤ a ∧ a + n ≤ 0x100000000 ∧ (a - 0x80000000) / 0x08000000 = (a + n - 1 - 0x80000000) / 0x08000000 then
    some (2 + (a - 0x80000000) / 0x08000000)
  else none

/-- A byte interval [lo, hi). -/
abbrev Interval := Nat × Nat

/-- What is left of intervals once [lo, hi) is taken away. -/
def cutInterval (lo hi : Nat) (l : List Interval) : List Interval :=
  (l.map (fun i =>
    (if i.1 < min i.2 lo then [(i.1, min i.2 lo)] else []) ++ (if max i.1 hi < i.2 then [(max i.1 hi, i.2)] else []))).flatten

/-- Whether an entry overlaps a region of its space. -/
def Binding.meets (b : Binding) (space lo hi : Nat) : Bool := b.space == space && decide (b.base < hi) && decide (lo < b.base + b.len)

/-- Adds one interval of an object, merged with the undeclared entries of the same object it touches (06 R151). -/
def addBinding (space : Nat) (obj : BindObj) (l : List Binding) (i : Interval) : List Binding :=
  let touches (b : Binding) : Bool :=
    !b.declared && b.space == space && b.obj == obj && decide (b.base ≤ i.2) && decide (i.1 ≤ b.base + b.len)
  let near := l.filter touches
  let lo := near.foldl (fun m b => min m b.base) i.1
  let hi := near.foldl (fun m b => max m (b.base + b.len)) i.2
  l.filter (fun b => !touches b) ++ [⟨space, lo, hi - lo, obj, false⟩]

/-- The table after a BIND: none if a byte is bound to another object or a 33rd entry is needed. -/
def bindRegion (t : List Binding) (space lo hi : Nat) (obj : BindObj) : Option (List Binding) :=
  if t.any (fun b => b.meets space lo hi && b.obj != obj) then none
  else
    let declared := t.filter (fun b => b.declared && b.space == space && b.obj == obj)
    let need := declared.foldl (fun l b => cutInterval b.base (b.base + b.len) l) [(lo, hi)]
    let t' := need.foldl (addBinding space obj) t
    if t'.length ≤ 32 then some t' else none

/-- The table after an UNBIND: none if it touches a declared entry or splits an entry of a full table. -/
def unbindRegion (t : List Binding) (space lo hi : Nat) : Option (List Binding) :=
  if t.any (fun b => b.meets space lo hi && b.declared) then none
  else
    let t' := (t.map (fun b =>
      if b.meets space lo hi then
        (cutInterval lo hi [(b.base, b.base + b.len)]).map (fun i => { b with base := i.1, len := i.2 - i.1 })
      else [b])).flatten
    if t'.length ≤ 32 then some t' else none

/-- The alignment and range checks of BIND and UNBIND (06 R151): the space, or the cause. -/
def regionCheck (sp base len : Nat) : Except Nat Nat :=
  if base % 64 ≠ 0 ∨ len % 64 ≠ 0 then .error 0x03
  else if len = 0 ∨ 2 ^ 40 < len then .error 0x06
  else
    match spaceOf sp base len with
    | some p => .ok p
    | none => .error 0x06

/-- The object check of BIND (06 R151): the object, or the cause and value. A window region takes only a flag word (04 R86). -/
def State.bindObj (s : State) (c : CtxId) (sp space obj kind : Nat) : Except (Nat × Word) BindObj :=
  if kind = 1 then
    if obj % 8 ≠ 0 then .error (0x03, zx obj)
    else if spaceOf sp obj 8 ≠ some space then .error (0x06, zx obj)
    else .ok (.flag obj)
  else if 2 ≤ space then .error (0x06, zx obj)
  else
    let h := obj % 2 ^ 32
    match s.handle c false h with
    | .error e => .error (e, zx h)
    | .ok key =>
      if h / 2 ^ 16 = 1 then .error (0x06, zx h)
      else if 4 ≤ semMode (s.word key) then .error (0x09, zx h)
      else if 2 ≤ semMode (s.word key) then .error (0x0A, zx h)
      else .ok (.sem h)

/-- BIND (06 R151). TVAL of a length that is none or misaligned is the region's base, the model's choice (log entry 56). -/
def execBind (gd : Guard) (d a b k sp : Nat) (s : State) : Res :=
  s.scu gd [d, a, b] 2 (fun s =>
    let x := s.ctx s.here
    let base := (x.reg d).toNat
    let len := (x.reg a).toNat
    match regionCheck sp base len with
    | .error e => .trap e (x.reg d) s
    | .ok space =>
      match s.bindObj s.here sp space (x.reg b).toNat k with
      | .error e => .trap e.1 (if k ≠ 1 ∧ 2 ≤ space then x.reg d else e.2) s
      | .ok obj =>
        match bindRegion (s.bindings s.here) space base (base + len) obj with
        | none => .trap 0x06 (x.reg d) s
        | some t' => .done (s.modTask s.here (fun t => { t with bindings := t' })))

/-- UNBIND (06 R151), with TVAL as BIND's (log entry 56). -/
def execUnbind (gd : Guard) (d a sp : Nat) (s : State) : Res :=
  s.scu gd [d, a] 2 (fun s =>
    let x := s.ctx s.here
    let base := (x.reg d).toNat
    let len := (x.reg a).toNat
    match regionCheck sp base len with
    | .error e => .trap e (x.reg d) s
    | .ok space =>
      match unbindRegion (s.bindings s.here) space base (base + len) with
      | none => .trap 0x06 (x.reg d) s
      | some t' => .done (s.modTask s.here (fun t => { t with bindings := t' })))

/-! ### Semaphores (06 R153, 03 R65-R66) -/

/-- Runs a vault operation of the SCU on the word a handle names. A suppressed operation of a reissued task has no effect
(16 R361); a word whose copies both fail is a die or package fault (03 R72). -/
def State.scuSem (s : State) (h : Nat) (release : Bool) (f : Nat → State → ScuOut) : ScuOut :=
  s.access false release (fun s =>
    match s.handle s.here false h with
    | .error e => .trap e (zx h) s
    | .ok key =>
      match s.failedWord s.agent [key] with
      | some k => .placed (s.vaultFailure k)
      | none =>
        match s.countOp s.agent with
        | (false, s') => .done s'
        | (true, _) => f key s)

/-- Counts the vault operation that has completed. -/
def State.counted (s : State) : State := (s.countOp s.agent).2

/-- The handle operand of a SEM form. -/
def Ctx.handleOf (x : Ctx) (a : Nat) : Nat := (x.reg a).toNat % 2 ^ 32

def execSemadd (gd : Guard) (a b : Nat) (s : State) : Res :=
  s.scu gd [a, b] 2 (fun s =>
    let x := s.ctx s.here
    let h := x.handleOf a
    s.scuSem h true (fun key s =>
      match semAdd (s.word key) (signed 32 (x.reg b).toNat) with
      | .error e => .trap e (zx h) s
      | .ok w => .done (s.counted.added s.agent h key w)))

def execSemwait (gd : Guard) (a b : Nat) (s : State) : Res :=
  s.scu gd [a, b] 2 (fun s =>
    let x := s.ctx s.here
    let h := x.handleOf a
    s.scuSem h false (fun key s =>
      match semWait (s.word key) (signed 32 (x.reg b).toNat) with
      | .error e => .trap e (zx h) s
      | .ok true => .done (s.counted.waited s.agent key)
      | .ok false => .block s))

def execSemwdec (gd : Guard) (a b : Nat) (s : State) : Res :=
  s.scu gd [a, b] 2 (fun s =>
    let x := s.ctx s.here
    let h := x.handleOf a
    let n := (x.reg b).toNat
    s.scuSem h false (fun key s =>
      match semWdec (s.word key) n with
      | .error e => .trap e (zx h) s
      | .ok r =>
        match r, s.firstWaiter key s.agent with
        | some w, true => .done (((s.counted.setWord key w).dropWaiter s.agent).waited s.agent key)
        | _, _ => .block (s.enqueueWaiter key s.agent n)))

/-- SEMGET is a relaxed read and no counted operation (16 R361). -/
def execSemget (gd : Guard) (d a : Nat) (s : State) : Res :=
  s.scu gd [d, a] 2 (fun s => s.access false false (fun s =>
    let h := (s.ctx s.here).handleOf a
    match s.handle s.here false h with
    | .error e => .trap e (zx h) s
    | .ok key =>
      if s.vaultBad.contains key then .placed (s.vaultFailure key)
      else if 4 ≤ semMode (s.word key) then .trap 0x09 (zx h) s
      else s.loaded d (s.word key)))

def execSemarm (gd : Guard) (a b : Nat) (s : State) : Res :=
  s.scu gd [a, b] 2 (fun s =>
    let x := s.ctx s.here
    let h := x.handleOf a
    s.scuSem h true (fun key s =>
      match semArm (s.word key) (x.reg b).toNat with
      | .error e => .trap e (zx h) s
      | .ok w => .done ((s.counted.signal s.agent key false (s.boundTo s.agent h)).setWord key w)))

/-! ### Enqueue (06 R154-R155) -/

/-- Reads a record image at a VA as CMD does: 256-byte aligned, present, readable and free of uncorrectable errors. Of an address that is past VA space and
misaligned too the first is reported, which is the model's choice (log entry 114). -/
def State.readRecord (s : State) (a : Word) (k : List Byte → State → ScuOut) : ScuOut :=
  if vaBad a then .trap 0x05 a s
  else if a.toNat % 256 ≠ 0 then .trap 0x03 a s
  else
    match s.mapVA s.here.coreId .scu (s.asid s.here) a.toNat 256 true false with
    | .fault cause va s' => .trap cause (zx va) s'
    | .absent va kind s' => s'.parkScu (s'.asid s'.here) va kind false
    | .busy s' => .stall s'
    | .ok as s' =>
      match s'.eccHit as with
      | some bad => .trap 0x08 (zx (a.toNat + as.idxOf bad)) s'
      | none => let r := s'.see s'.agent as; k r.1 r.2

/-- Appends a record to a queue of 64, or blocks (06 R154); it publishes every earlier write of the context to the command (04 R88). The count it returns takes in the records that CMDR of other tasks and CE
follow-ons have appended, which is the model's choice (log entry 75). -/
def State.enqueue (s : State) (d : Nat) (ag : AgentId) (r : Rec) : ScuOut :=
  let q := s.stream ag
  if 64 ≤ q.queue.length then .block s
  else (((s.performOwn s.agent).publish s.agent (fun _ => true) (.command ag (q.appended + 1))).setStream ag
    { q with queue := q.queue ++ [r], appended := q.appended + 1 }).loaded d (zx (q.appended + 1))

/-- The steps of CMD onto the queue of a slot's engine. -/
def State.command (s : State) (d : Nat) (a : Word) (ag : AgentId) (e : Nat) : ScuOut :=
  s.access false true (fun s =>
    s.readRecord a (fun b s => if recLegal b e then s.enqueue d ag (recOf b a.toNat) else .trap 0x01 a s))

def execCmd (gd : Guard) (d a e : Nat) (s : State) : Res :=
  if s.docent then s.illegal (encodeWord (.cmd gd d a e))
  else s.scu gd [d, a] 2 (fun s => s.command d ((s.ctx s.here).reg a) (s.here.agent (engineKind e)) e)

/-- Whether core `n` of a die is live (14 R319, 18 R392): not held for repair. -/
def State.coreLive (s : State) (d n : Nat) : Bool := (s.service.livecore.getD d 0).testBit n

/-- The slot CMDR may enqueue on: another slot of the die with a task of the same launch on a live core (06 R155). -/
def State.peerSlot (s : State) (v : Nat) : Option CtxId :=
  let c : CtxId := ⟨s.here.die, v % 64, v / 64 % 4⟩
  if v / 256 ≠ 0 then none
  else if c = s.here then some c
  else
    match s.task c, s.task s.here with
    | some t, some u => if t.launch = u.launch ∧ !t.parked ∧ s.coreLive c.die c.core then some c else none
    | _, _ => none

/-- CMDR blocks on a full queue as long as the slot's task is the one it found (06 R155). -/
def execCmdr (gd : Guard) (d a b e : Nat) (s : State) : Res :=
  if s.docent then s.illegal (encodeWord (.cmdr gd d a b e))
  else
    s.scu gd [d, a, b] 2 (fun s =>
      let x := s.ctx s.here
      match s.peerSlot (x.reg b).toNat, x.cmdTarget with
      | none, _ | _, some (_, true) => .trap 0x06 (x.reg b) s
      | some c, _ =>
        match s.command d (x.reg a) (c.agent (engineKind e)) e with
        | .done s' => .done (if c = s.here then s' else s'.spoil s.here)
        | .block s' => .block (s'.modCtx s.here (fun x => { x with cmdTarget := some (c, false) }))
        | o => o)

/-! ### CPYT (06 R156-R157) -/

/-- Whether a copy's range leaves its space or touches a hole. -/
def copyHole (isS : Bool) (a n : Nat) : Bool := if isS then sLoc a n == .hole else decide (2 ^ 56 < a + n)

/-- The permission checks of a copy's S-space range at issue: the value TVAL takes, if they fail. -/
def State.copyDenied (s : State) (isS : Bool) (a n : Nat) : Option Word :=
  if !isS then none
  else
    match sLoc a n with
    | .icb _ _ | .window _ _ => some (zx a)
    | .tile _ _ =>
      match s.tileCheck s.here a n with
      | .error e => some e.2
      | .ok _ => none
    | _ => if inDocentArea a n then some (zx a) else none

/-- CPYT (06 R156). A copy that has failed but whose token has not been touched still counts as one of the four pending, which is the
model's choice (log entry 76), and so is TVAL of ranges that overlap, the destination's address (log entry 51). -/
def execCpyt (gd : Guard) (d a b src dst : Nat) (s : State) : Res :=
  if s.docent then s.illegal (encodeWord (.cpyt gd d a b src dst))
  else
    s.scu gd [d, a, b] 2 (fun s => s.access false false (fun s =>
      let x := s.ctx s.here
      let n := (x.reg d).toNat
      let dS := dst == 1
      let sS := src == 1
      let da := if dS then (x.reg a).toNat % 2 ^ 32 else (x.reg a).toNat
      let sa := if sS then (x.reg b).toNat % 2 ^ 32 else (x.reg b).toNat
      if n = 0 ∨ 2 ^ 24 < n then .trap 0x06 (zx n) s
      else if copyHole dS da n then .trap (if dS then 0x04 else 0x05) (zx da) s
      else if copyHole sS sa n then .trap (if sS then 0x04 else 0x05) (zx sa) s
      else
        match s.copyDenied dS da n, s.copyDenied sS sa n with
        | some v, _ => .trap 0x06 v s
        | none, some v => .trap 0x06 v s
        | none, none =>
          if dS = sS ∧ da < sa + n ∧ sa < da + n then .trap 0x06 (zx da) s
          else if 4 ≤ x.copies.length then .block s
          else .done (s.modCtx s.here (fun y => { y with copies := y.copies ++ [⟨d, n, da, sa, dS, sS, none⟩] }))))

/-! ### State registers (05 R121-R122, 06 R158) -/

/-- The granted level a core sees, or until the next step what the supervisor has written over it (13 R272; log entry 87). Until it first reads the
level of the last step, a read gives that level or the one before the step, each being possible (17 R373); the requests of the present cycle
come to one step only at its end (17 R372). -/
def State.seeLevel (s : State) (c : CoreId) : Nat × State :=
  let k := s.core c
  match k.levelSet.filter (fun e => e.2 == s.power.steps) with
  | some e => (e.1, s)
  | none =>
  if k.sawStep = s.power.steps ∨ s.power.was = s.power.settled then (s.power.settled, s)
  else if Config.freeBit s.freeCtr then (s.power.settled, s.tick.setCore c { k with sawStep := s.power.steps })
  else (s.power.was, s.tick)

/-- Packs 4-bit divisors (05 R121). -/
def divisorWord (l : List Nat) : Nat := l.foldr (fun v acc => v + 16 * acc) 0

/-- Who may read a register: assigned numbers only. -/
inductive RegClass where
  | unassigned | task | docent | supervisor
deriving DecidableEq, Repr

/-- The class of a state register number. -/
def regClass (n : Nat) : RegClass :=
  if n ≤ 0x006 ∨ (0x010 ≤ n ∧ n ≤ 0x02F) ∨ (0x040 ≤ n ∧ n ≤ 0x045) then .task
  else if n = 0x100 ∨ n = 0x101 ∨ (0x110 ≤ n ∧ n ≤ 0x113) ∨ (0x120 ≤ n ∧ n ≤ 0x124) then .docent
  else if n = 0x200 then .supervisor
  else .unassigned

/-- The value of a state register as context `c` reads it (05 R121). PWRLVL is read through `seeLevel`. -/
def State.stateReg (s : State) (c : CtxId) (n : Nat) : Word :=
  let x := s.ctx c
  let k := s.core c.coreId
  if n = 0 then s.cycleOf c.coreId
  else if n = 1 then zx (Table.get c.ctx k.slotSet c.ctx)
  else if n = 2 then zx (k.idSet.getD (c.core + c.die * 2 ^ 6 + s.pkg * 2 ^ 10))
  else if n = 3 then zx (s.seeLevel c.coreId).1
  else if n = 4 then x.sched
  else if n = 5 then zx (divisorWord k.clkdiv.toList)
  else if n = 6 then zx ((s.ve c).shadow.tile + (s.ve c).shadow.half * 16)
  else if 0x010 ≤ n ∧ n ≤ 0x017 then zx (x.lvx.getD (n - 0x010) 0)
  else if 0x018 ≤ n ∧ n ≤ 0x01F then zx (x.lve.getD (n - 0x018) 0)
  else if 0x020 ≤ n ∧ n ≤ 0x02F then zx (s.allowance c.coreId (n - 0x020))
  else if n = 0x040 then x.tstat c.ctx
  else if n = 0x041 then x.tpc
  else if n = 0x042 then zx x.tcause
  else if n = 0x043 then x.tval
  else if n = 0x044 then zx x.trep
  else if n = 0x045 then zx x.tvec
  else if n = 0x100 then k.tdlg
  else if n = 0x101 then zx k.dshare
  else if 0x110 ≤ n ∧ n ≤ 0x113 then zx (k.mbhold.getD (n - 0x110) 0)
  else if 0x120 ≤ n ∧ n ≤ 0x124 then zx (k.wdt.getD (n - 0x120) 0)
  else if n = 0x200 then zx s.duty
  else 0

/-- The writable bits of TDLG (13 R280). -/
def tdlgMask : Word := 0x2FFFA0000BFFA

/-- Writes a state register that an MTS or the supervisor may write, by the rule for reserved fields (00 R6). -/
def State.writeStateReg (s : State) (c : CtxId) (n : Nat) (v : Word) : State :=
  if n = 0x041 then s.modCtx c (fun x => { x with tpc := v &&& 0xFFFFFFFF })
  else if n = 0x045 then s.modCtx c (fun x => { x with tvec := v.toNat % 2 ^ 14 })
  else if n = 0x100 then s.modCore c.coreId (fun k => { k with tdlg := v &&& tdlgMask })
  else if n = 0x101 then
    (if v.toNat % 8 ≤ 4 then s.modCore c.coreId (fun k => { k with dshare := v.toNat % 8 }) else s)
  else if 0x110 ≤ n ∧ n ≤ 0x113 then
    s.modCore c.coreId (fun k => { k with mbhold := setNth k.mbhold (n - 0x110) (v.toNat % 2 ^ 16) })
  else if 0x120 ≤ n ∧ n ≤ 0x124 then
    s.modCore c.coreId (fun k => { k with wdt := setNth k.wdt (n - 0x120) (v.toNat % 2 ^ 32) })
  else s

/-- Whether a context may write a register by MTS (05 R121, 06 R158). -/
def State.mtsAllowed (s : State) (n : Nat) : Bool :=
  match regClass n with
  | .task => n == 0x045 || (n == 0x041 && (s.ctx s.here).depth != 0)
  | .docent => s.docent
  | _ => false

def execMfs (gd : Guard) (d n : Nat) (s : State) : Res :=
  if regClass n = .unassigned then s.illegal (encodeWord (.mfs gd d n))
  else
    s.scu gd [d] 2 (fun s =>
      if regClass n = .supervisor ∨ (regClass n = .docent ∧ !s.docent) then .trap 0x06 (zx n) s
      else if n = 3 then
        match s.seeLevel s.here.coreId with
        | (l, s') => s'.loaded d (zx l)
      else s.loaded d (s.stateReg s.here n))

def execMts (gd : Guard) (d n : Nat) (s : State) : Res :=
  if regClass n = .unassigned then s.illegal (encodeWord (.mts gd d n))
  else
    s.scu gd [d] 2 (fun s =>
      if s.mtsAllowed n then .done (s.writeStateReg s.here n ((s.ctx s.here).reg d)) else .trap 0x06 (zx n) s)

/-! ### Switch points, divisors, PARK and YIELD (06 R159-R161) -/

/-- A halfword of I-space. -/
def State.ispaceHalf (s : State) (c : CoreId) (i : Nat) : Nat := s.rdNat (ispaceAt c (2 * i)) 2

/-- Where SWPT continues at another variant, if the skim block names one (01 R25, 14 R313). -/
def State.switchTo (s : State) (skim level id running : Nat) : Option (Nat × Nat) :=
  let h (i : Nat) : Nat := s.ispaceHalf s.here.coreId (skim + i)
  let v := fld (h (level / 2)) (8 * (level % 2)) 8
  let npts := fld (h 4) 0 11
  let e := h (5 + v * npts + id)
  if v = running ∨ npts ≤ id ∨ 2 ^ 15 ≤ e then none else some (v, e % 2 ^ 14)

/-- The uncorrectable word among the halfwords of the skim block that SWPT reads, as a byte offset in I-space (03 R72; log entry 77). -/
def State.skimBad (s : State) (skim level id running : Nat) : Option Word :=
  let base := ispaceAt s.here.coreId 0
  let at_ (i : Nat) : List Nat := rangeFrom (base + 2 * (skim + i)) 2
  let h (i : Nat) : Nat := s.ispaceHalf s.here.coreId (skim + i)
  let v := fld (h (level / 2)) (8 * (level % 2)) 8
  let npts := fld (h 4) 0 11
  ((([at_ (level / 2)] ++ (if v = running then [] else at_ 4 :: (if npts ≤ id then [] else [at_ (5 + v * npts + id)]))).findSome? s.eccHit)).map
    (fun a => zx (a - base))

/-- Notes that a slot has executed a switch point that read the new level (17 R375). -/
def State.sawLevel (s : State) (c : CtxId) (level : Nat) : State :=
  if level = s.power.settled then s.modCore c.coreId (fun k => { k with pendingStep := k.pendingStep.filter (fun x => x ≠ c.ctx) }) else s

def execSwpt (gd : Guard) (i : Nat) (s : State) : Res :=
  if s.docent || s.inSlot then s.illegal (encodeWord (.swpt gd i))
  else
    s.scu gd [] 2 (fun s =>
      match s.seeLevel s.here.coreId with
      | (level, s') =>
        match (s'.task s.here).bind (fun t => t.skim.bind (fun k => s'.skimBad k level i (s'.ctx s.here).variant)) with
        | some v => .trap 0x08 v s
        | none =>
        let s' := s'.sawLevel s.here level
        match (s'.task s.here).bind (fun t => t.skim.bind (fun k => s'.switchTo k level i (s'.ctx s.here).variant)) with
        | none => .done s'
        | some (v, entry) => .placed (s'.modCtx s.here (fun x => { x.complete 2 with variant := v, pc := entry })))

/-- The five divisor fields of CLKDIV's operand. -/
def divisorFields (v : Nat) : List Nat := (List.range 5).map (fun i => fld v (4 * i) 4)

/-- New divisors: a zero field leaves the old one (06 R160). -/
def newDivisors (old : Vector Nat 5) (fields : List Nat) : Vector Nat 5 :=
  tabulate 5 (fun i => if fields.getD i 0 = 0 then old.getD i 0 else fields.getD i 0)

def execClkdiv (gd : Guard) (a : Nat) (s : State) : Res :=
  if s.docent then s.illegal (encodeWord (.clkdiv gd a))
  else
    s.scu gd [a] 2 (fun s =>
      let v := (s.ctx s.here).reg a
      if v.toNat / 2 ^ 20 ≠ 0 ∨ (divisorFields v.toNat).any (fun f => decide (8 < f)) then .trap 0x06 v s
      else
        .done (s.modCore s.here.coreId (fun k =>
          let n := newDivisors k.clkdiv (divisorFields v.toNat)
          { k.setDivisor 0 (ladderDivisor .scu (s.depthOf s.here.die) (n.getD 0 1)) s.cycle with clkdiv := n })))

/-- Whether a slot's engine queues are all empty and every command has retired. -/
def State.queuesEmpty (s : State) (c : CtxId) : Bool := engineKinds.all (fun k => (s.stream (c.agent k)).queue.isEmpty)

/-- PARK (06 R161). The docent's stands at its PARK until a trap enters it or the doorbell moves it past (13 R282); a report owed to it
is taken there (03 R61). -/
def execPark (gd : Guard) (s : State) : Res :=
  s.scu gd [] 2 (fun s =>
    let c := s.here
    let x := s.ctx c
    if s.docent then
      match x.reports with
      | t :: _ => .trap 0x07 t (s.modCtx c (fun x => { x with reports := x.reports.erase t }))
      | [] => .placed (s.modCtx c (fun x => { x with park := true }))
    else
      match x.copies.find? (fun y => y.fault.isSome), x.reports with
      | some y, _ =>
        match y.fault with
        | some (cause, v, n) => .trap cause v (s.modCtx c (fun x => ({ x with copies := x.copies.erase y }).setReg y.reg (zx n)))
        | none => .block s
      | none, t :: _ => .trap 0x07 t (s.modCtx c (fun x => { x with reports := x.reports.erase t }))
      | none, [] =>
        if s.queuesEmpty c && x.copies.isEmpty && !(s.core c.coreId).posted.any (fun p => p.agent.ctx == c && !p.drop) then
          .placed ((s.modTask c (fun t => { t with parked := true })).modCtx c (fun x => { x with blocked := false, wd := 0 }))
        else .block s)

def execYield (gd : Guard) (s : State) : Res :=
  s.scu gd [] 2 (fun s => .done (s.modCtx s.here (fun x => { x with yielded := true })))

/-! ### Software traps (06 R162) -/

/-- TRAP and BRK: the trap stands after the instruction, in or out of a delay slot; it issues, so it is charged (17 R379, log entry 57). -/
def State.software (s : State) (gd : Guard) (v : Nat) : Res :=
  s.scu gd [] 2 (fun s => .trap 0x0D (zx v) ((s.charge s.here.coreId 0 1).modCtx s.here (fun x => x.complete 2)))

def execTrap (gd : Guard) (c : Nat) (s : State) : Res := s.software gd c
def execBrk (gd : Guard) (c : Nat) (s : State) : Res := s.software gd (0x400 + c)

/-! ### Handlers (13 R285-R287) -/

def execTren (gd : Guard) (s : State) : Res :=
  s.scu gd [] 2 (fun s =>
    if (s.ctx s.here).depth = 0 then .trap 0x01 (zx (encodeWord (.tren gd))) s
    else .done (s.modCtx s.here (fun x => { x with wopen := true })))

/-- Sets PC and the pending transfer from a TPC value (13 R278, R287). -/
def Ctx.resumeAt (x : Ctx) (t : Word) : Ctx :=
  { x with pc := wfld t 0 14,
           xfer := if wbit t 14 then some ⟨wfld t 18 14, wbit t 15, wfld t 16 2⟩ else none }

/-- Whether a TPC value holds a pending transfer with no legal number of slots left. -/
def tpcBad (t : Word) : Bool := wbit t 14 && !(wfld t 16 2 == 1 || wfld t 16 2 == 2)

def execTret (gd : Guard) (s : State) : Res :=
  if s.inSlot then s.illegal (encodeWord (.tret gd))
  else
    s.scu gd [] 2 (fun s =>
      let x := s.ctx s.here
      if x.depth = 0 || tpcBad x.tpc then .trap 0x01 (zx (encodeWord (.tret gd))) s
      else
        let s' := s.modCtx s.here (fun x =>
          { (x.resumeAt x.tpc) with depth := x.depth - 1, wopen := true, blocked := false, wd := 0 })
        .placed (if x.depth = 1 ∧ !s.docent then s'.release s.here else s'))

/-! ### TSNAP and WAKE (13 R288-R289) -/

/-- A g register as a snapshot gives it: a pending token as the value it will hold. -/
def Ctx.snapReg (x : Ctx) (i : Nat) : Word :=
  match x.copies.find? (fun c => c.reg == i && i != 0) with
  | some c => (match c.fault with | some (_, _, n) => zx n | none => zx c.n)
  | none => x.reg i

/-- A list of bits as a number, the first lowest. -/
def bitsNat (l : List Bool) : Nat := l.foldr (fun b acc => (if b then 1 else 0) + 2 * acc) 0

/-- The 64 words of a snapshot (13 R288). -/
def Ctx.snapshot (x : Ctx) (slot : Nat) : List Nat :=
  (List.range 32).map (fun i => (x.snapReg i).toNat)
  ++ [ x.tpc.toNat, (x.tstat slot).toNat, x.tcause, x.tval.toNat, x.trep, x.tvec,
       bitsNat ((List.range 16).map x.cond) + x.votes.length * 2 ^ 16 + bitsNat x.votes * 2 ^ 20,
       bitsNat ((List.range 32).map (fun i => x.copies.any (fun c => c.reg == i && i != 0))),
       halves x.b.toList ]
  ++ List.replicate 23 0

/-- TSNAP (13 R288), a weak write of the docent: it waits for the end of an access that the slot has issued (R282). A word that is illegal by its context or its number, as this one is in a task, traps before its guard is read: 05 R102
and 06 R163 leave open which comes first (log entry 70). -/
def execTsnap (gd : Guard) (a b : Nat) (s : State) : Res :=
  if !s.docent then s.illegal (encodeWord (.tsnap gd a b))
  else
    s.scu gd [a, b] 2 (fun s => s.access false false (fun s =>
      let x := s.ctx s.here
      let slot := (x.reg a).toNat
      let dst := (x.reg b).toNat % 2 ^ 32
      if 4 ≤ slot then .trap 0x06 (x.reg a) s
      else if dst % 512 ≠ 0 then .trap 0x03 (zx dst) s
      else if dst / 0x200000 ≠ s.here.core ∨ 0x180000 ≤ dst % 0x200000 then .trap 0x06 (zx dst) s
      else
        let c : CtxId := ⟨s.here.die, s.here.core, slot⟩
        let s' := (s.dropWaiter (c.agent .scu)).modCtx c Ctx.abandon
        if (s.ctx c).parked ≠ .no then .stall s
        else .done (s'.write s.agent (spotsAt true dst (cellsAt (scratchAt c.die dst) (((s'.ctx c).snapshot c.ctx).map (natLe 8)).flatten)))))

/-- WAKE without REFLECT: as a TRET to depth 0 (13 R289). -/
def State.wakePlain (s : State) (c : CtxId) : State :=
  (s.modCtx c (fun x => { (x.resumeAt x.tpc) with depth := 0, wopen := true })).release c

/-- WAKE with REFLECT: the trap in the task's registers enters its own handler (13 R289). -/
def State.reflect (s : State) (c : CtxId) : State :=
  let x := s.ctx c
  (s.modTask c (fun t => { t with inHandler := true })).enter c c x.src x.tcause x.tval

/-- WAKE (13 R289). A TPC under which a TRET would be illegal (R287) makes the WAKE illegal, and the task stays as it is (log entry 110). -/
def execWake (gd : Guard) (a : Nat) (s : State) : Res :=
  if !s.docent then s.illegal (encodeWord (.wake gd a))
  else
    s.scu gd [a] 2 (fun s =>
      let v := (s.ctx s.here).reg a
      let c : CtxId := ⟨s.here.die, s.here.core, v.toNat % 4⟩
      if v.toNat / 8 ≠ 0 then .trap 0x06 v s
      else
        match s.task c with
        | none => .done s
        | some t =>
          if (!t.frozen && !t.preempted) || (s.ctx c).pend.isSome then .done s
          else if wbit v 2 then
            (if t.preempted || !(s.ctx c).wopen || (s.ctx c).depth == 15 then .trap 0x06 v s else .done (s.reflect c))
          else if tpcBad (s.ctx c).tpc then .trap 0x01 (zx (encodeWord (.wake gd a))) s
          else .done (s.wakePlain c))

end Sys2Proof.Machine
end

