-- ==== Sys2Proof/Machine/Engine.lean ====
section
/-! DEFINITION. The frame of an engine instruction: guards, blocks and passes (05 R101-R106), the waits of the vault, and the forms all
engines share (09 R225, 10 R242). -/

namespace Sys2Proof.Machine

/-! ### Guards and passes (05 R101-R105) -/

/-- The loop-edge condition of a pass (05 R101). `due` says whether a mark falls due at its end. -/
def edge (g : Nat) (r : Rec) (x : Stream) (due : Bool) : Bool :=
  if g ≤ 5 then x.idx.getD g 0 == 0
  else if g ≤ 11 then x.idx.getD (g - 6) 0 + 1 == r.bound.getD (g - 6) 1
  else if g = 12 then due
  else if g = 13 then x.idx.getD 0 0 % 2 == 1
  else if g = 14 then x.prevRow != some (passRow r x.idx)
  else true

/-- Whether a level mark or the final mark follows a pass (05 R101, R105). -/
def Stream.levelDue (x : Stream) (r : Rec) : Bool := endsLevel r.mlvl x.idx r.bound || isLast x.idx r.bound

/-- The guard of an ME, CE or XE instruction (05 R101). -/
def Stream.guardOn (x : Stream) (r : Rec) (gd : Guard) : Bool := edge gd.sel r x (x.levelDue r) != (gd.neg == 1)

/-- Whether a slot owns a tile (09 R218). -/
def State.ownsTile (s : State) (c : CtxId) : Bool := !(s.me c).owned.isEmpty

/-- Whether a task has been asked to stop. -/
def State.asked (s : State) (c : CtxId) : Bool :=
  match s.task c with
  | some t => t.preempting
  | none => false

/-- Ends a pass: a mark that is due is taken before the next pass begins, deferred by an ME that owns tiles, and an ME command may not
end with a tile owned (05 R105, 09 R220, R233). -/
def State.endPass (s : State) (a : AgentId) (r : Rec) : State :=
  let x := s.stream a
  let me := decide (a.kind = .me)
  let due := x.levelDue r || x.markAsked || x.markDue || (me && s.asked a.ctx)
  let owns := me && s.ownsTile a.ctx
  if due && !owns then s.modStream a (fun x => { x with atEnd := true, inBody := false })
  else
    match nestNext x.idx r.bound with
    | some idx => s.modStream a (fun x => { x.beginPass r idx with prevRow := some (passRow r x.idx), markDue := due })
    | none => s.trapAgent a 0x06 (zx (((s.me a.ctx).owned.map Prod.fst).foldl min 15))

/-- Moves a stream past an instruction that has issued. -/
def State.advanceStream (s : State) (a : AgentId) : State :=
  let x := s.stream a
  match x.current with
  | none => s
  | some r =>
    let s := s.modStream a (fun x => { x with epc := x.epc + 2, wait := .none, atMark := false, issues := x.issues + 1 })
    if x.inBody && decide (x.bodyStart + x.bodyLen ≤ x.epc + 2) then
      if 1 < x.repsLeft then s.modStream a (fun x => { x with epc := x.bodyStart, repsLeft := x.repsLeft - 1 })
      else if x.blocks + 1 < r.bcnt then s.modStream a (fun x => { x with inBody := false, blocks := x.blocks + 1 })
      else s.endPass a r
    else s

/-! ### The frame of an engine instruction -/

/-- What an engine instruction's body comes to: it issues at a cost, waits, traps, or issues and then traps (02 R42). -/
inductive EngOut where
  | done (cost : Nat) (s : State)
  | wait (w : Wait) (s : State)
  | trap (cause : Nat) (v : Word) (s : State)
  | doneTrap (cost cause : Nat) (v : Word) (s : State)

/-- A slot of an engine progresses (16 R347). -/
def State.progress (s : State) (a : AgentId) : State :=
  if a.kind = .scu then s else s.modCore a.coreId (fun k => { k with wd := setNth k.wd (a.kind.num - 1) 0 })

/-- An engine instruction has issued: its cost, its progress, and the next instruction. -/
def State.issued (s : State) (cost : Nat) : State :=
  (((s.charge s.agent.coreId s.agent.kind.num cost).progress s.agent)).advanceStream s.agent

/-- Acts on what an engine instruction's body came to. -/
def EngOut.settle (o : EngOut) : Res :=
  match o with
  | .done cost s => .next (s.issued cost)
  | .wait w s => .next (s.modStream s.agent (fun x => { x with wait := w }))
  | .trap cause v s => .next (s.trapAgent s.agent cause v)
  | .doneTrap cost cause v s => .next ((s.issued cost).trapAgent s.agent cause v)

/-- Whether a VE load through a window holds its stream until its data has come (03 R60). -/
def State.windowHeld (s : State) (a : AgentId) : Bool :=
  a.kind == .ve && (s.ve a.ctx).pend.any (fun x => x.load && !x.done && !(x.pieces.isEmpty && x.want.isEmpty))

/-- Runs the body of an instruction of the current command; without one, or while the stream is parked on a translation or waits for a
window load, nothing runs. -/
def State.engine (s : State) (f : Rec → Stream → State → EngOut) : Res :=
  let x := s.stream s.agent
  match x.current with
  | none => .next s
  | some r => if x.wait = .parked ∨ s.windowHeld s.agent then .next s else (f r x s).settle

/-- Runs the body of an ME, CE or XE instruction under its loop-edge guard (05 R101-R102). -/
def State.guarded (s : State) (gd : Guard) (f : Rec → Stream → State → EngOut) : Res :=
  s.engine (fun r x s => if x.guardOn r gd then f r x s else .done 0 s)

/-- An engine's illegal word (05 R100). -/
def State.illegalEngine (s : State) (w : Nat) : Res := .next (s.trapAgent s.agent 0x01 (zx w))

/-- The cost of an instruction of an engine that is neither a transfer nor arithmetic (17 R379). -/
def plainCost (k : AgentKind) : Nat := if k = .ve then 2 else 1

/-! ### BLK, MARK, NOP and illegal words (05 R100-R105) -/

/-- BLK opens a block; inside a body it is illegal (05 R103-R104). It is charged as any other instruction (17 R379). -/
def execBlk (l r : Nat) (s : State) : Res :=
  let a := s.agent
  let x := s.stream a
  if x.current.isNone ∨ s.windowHeld a then .next s
  else if x.inBody then s.illegalEngine (encodeWord (.blk l r))
  else
    .next (((s.charge a.coreId a.kind.num (plainCost a.kind)).progress a).modStream a (fun x =>
      { x with epc := x.epc + 2, inBody := true, bodyStart := x.epc + 2, bodyLen := l, repsLeft := r, issues := x.issues + 1, atMark := false }))

/-- Whether a VE predicate guard is true in some granule (05 R105). -/
def Ve.guardAny (v : Ve) (gd : Guard) : Bool :=
  let p := v.pred gd.sel
  (if gd.neg = 1 then ~~~p else p) != 0

def execMark (gd : Guard) (s : State) : Res :=
  let ask (s : State) : EngOut := .done (plainCost s.agent.kind) (s.modStream s.agent (fun x => { x with markAsked := true }))
  if s.agent.kind = .ve then
    s.engine (fun _ _ s => if (s.ve s.agent.ctx).guardAny gd then ask s else .done 2 s)
  else s.guarded gd (fun _ _ s => ask s)

/-- NOP has no effect in any stream (05 R105, 06 R163). -/
def execNop (gd : Guard) (s : State) : Res :=
  if s.agent.kind = .scu then s.scu gd [] 2 .done
  else if s.agent.kind = .ve then s.engine (fun _ _ s => .done 2 s)
  else s.guarded gd (fun _ _ s => .done 1 s)

/-- An illegal word traps before any effect, in the stream that fetched it (05 R100). -/
def execIllegalInstruction (w : Nat) (s : State) : Res :=
  if s.agent.kind = .scu then s.illegal w
  else if (s.stream s.agent).current.isNone ∨ s.windowHeld s.agent then .next s
  else s.illegalEngine w

/-! ### Vault operations of an engine (08 R200-R201, 09 R225, 10 R242) -/

/-- A handle of the record. -/
def Rec.sem (r : Rec) (e : Nat) : Nat := r.e.getD e 0
/-- A pail handle of the record. -/
def Rec.pailOf (r : Rec) (h : Nat) : Nat := r.h.getD h 0

/-- Whether the next vault operation of an agent acts, and the state with it counted (16 R361). -/
def State.live (s : State) : Bool := (s.countOp s.agent).1

/-- Runs an operation on a vault word of the engine, unless both copies of it or of the engine's replay count have failed (03 R72). -/
def State.engSem (s : State) (h : Nat) (f : Nat → EngOut) : EngOut :=
  match s.handle s.agent.ctx true h with
  | .error e => .trap e (zx h) s
  | .ok key =>
    match s.failedWord s.agent [key] with
    | some k => .wait .none (s.vaultFailure k)
    | none => f key

/-- Runs an operation on a pail of the engine (03 R68), unless both copies of one of its words have failed. -/
def State.engPail (s : State) (h : Nat) (f : Nat → EngOut) : EngOut :=
  match s.handle s.agent.ctx true h with
  | .error e => .trap e (zx h) s
  | .ok key =>
    match s.failedWord s.agent ((List.range 4).map (fun i => key - key % 4 + i)) with
    | some k => .wait .none (s.vaultFailure k)
    | none =>
      match s.pail s.agent.ctx h with
      | .error e => .trap e (zx h) s
      | .ok key => f key

/-- SemWait of an engine; `i` is the index of the handle in the record (16 R354). -/
def State.engWait (s : State) (r : Rec) (i : Nat) (n : Nat) (cost : Nat) : EngOut :=
  let h := r.sem i
  s.engSem h (fun key =>
    if !s.live then .done cost s.counted
    else
      match semWait (s.word key) n with
      | .error e => .trap e (zx h) s
      | .ok true => .done cost (s.counted.waited s.agent key)
      | .ok false => .wait (.vault i) s)

/-- SemWdec of an engine: applied at once and staged for its undoing (03 R70). -/
def State.engWdec (s : State) (r : Rec) (i : Nat) (n : Nat) (cost : Nat) : EngOut :=
  let h := r.sem i
  s.engSem h (fun key =>
    if !s.live then .done cost s.counted
    else
      match semWdec (s.word key) n with
      | .error e => .trap e (zx h) s
      | .ok w =>
        match w, s.firstWaiter key s.agent with
        | some w, true => .done cost ((((s.counted.setWord key w).dropWaiter s.agent).waited s.agent key).stage s.agent (.dec h n true))
        | _, _ => .wait (.vault i) (s.enqueueWaiter key s.agent n))

/-- PailWaitFilled (side 0) and PailWaitFree (side 1) of an engine (03 R68). -/
def State.engPailWait (s : State) (r : Rec) (side i : Nat) (n : Nat) (cost : Nat) : EngOut :=
  let h := r.pailOf i
  s.engPail h (fun key =>
    if n < 1 ∨ pailCount (s.word (key + 3)) < n then .trap 0x0A (zx h) s
    else if !s.live then .done cost s.counted
    else if (n : Int) ≤ semCount (s.word (key + side)) then .done cost (s.counted.waited s.agent (key + side))
    else .wait (.pail i) s)

/-- PailPublish (side 0) and PailRelease (side 1) of an engine: the decrement and the move at once, the increment staged (03 R70). -/
def State.engAdvance (s : State) (r : Rec) (side i : Nat) (n : Nat) (cost : Nat) : EngOut :=
  let h := r.pailOf i
  s.engPail h (fun key =>
    let first := wfld (s.word (key + 2)) (8 * side) 8
    let op (live : Bool) : Staged := if side = 0 then .publish h n first live else .release h n first live
    if !s.live then .done cost (s.counted.stage s.agent (op false))
    else
      match s.counted.pailTake key side n with
      | .error e => .trap e (zx h) s
      | .ok s' => .done cost (s'.stage s.agent (op true)))

/-- SemAdd of an engine, staged (08 R201, 09 R225). -/
def State.engSignal (s : State) (r : Rec) (i : Nat) (n : Nat) (cost : Nat) : EngOut :=
  let h := r.sem i
  s.engSem h (fun key =>
    let d := signed 16 n
    match semAddStage (s.word key) d with
    | .error e => if s.live then .trap e (zx h) s else .done cost (s.counted.stage s.agent (.add h d false))
    | .ok _ => .done cost (s.counted.stage s.agent (.add h d s.live)))

/-- The EW forms MWAIT, CWAIT and XWAIT (05 R118). -/
def State.waitForm (s : State) (gd : Guard) (k i n : Nat) : Res :=
  s.guarded gd (fun r _ s =>
    match k with
    | 0 => s.engWait r i n 1
    | 1 => s.engWdec r i n 1
    | 2 => s.engPailWait r 0 i n 1
    | _ => s.engPailWait r 1 i n 1)

/-- The EA forms MADV, CADV and XADV. -/
def State.advForm (s : State) (gd : Guard) (h side n : Nat) : Res := s.guarded gd (fun r _ s => s.engAdvance r side h n 1)

/-- The ES forms MSIG, CSIG and XSIG. -/
def State.sigForm (s : State) (gd : Guard) (e n : Nat) : Res := s.guarded gd (fun r _ s => s.engSignal r e n 1)

def execMwait (gd : Guard) (k i c : Nat) (s : State) : Res := s.waitForm gd k i c
def execCwait (gd : Guard) (k i c : Nat) (s : State) : Res := s.waitForm gd k i c
def execXwait (gd : Guard) (k i c : Nat) (s : State) : Res := s.waitForm gd k i c
def execMadv (gd : Guard) (h sd c : Nat) (s : State) : Res := s.advForm gd h sd c
def execCadv (gd : Guard) (h sd c : Nat) (s : State) : Res := s.advForm gd h sd c
def execXadv (gd : Guard) (h sd c : Nat) (s : State) : Res := s.advForm gd h sd c
def execMsig (gd : Guard) (e c : Nat) (s : State) : Res := s.sigForm gd e c
def execCsig (gd : Guard) (e c : Nat) (s : State) : Res := s.sigForm gd e c
def execXsig (gd : Guard) (e c : Nat) (s : State) : Res := s.sigForm gd e c

end Sys2Proof.Machine
end

