-- ==== Sys2Proof/Machine/Special.lean ====
section
/-! DEFINITION. The special functions of the VE (02 R49, 07 R174): each result is the exact value rounded once. Reciprocals are rounded
from an exact quotient with a sticky bit. The transcendental functions are bracketed at rising precisions until both ends round alike. -/

namespace Sys2Proof.Machine

/-! ### Rounding of a special function's value (02 R49) -/

/-- Rounds a non-zero m × 2^e as R49 fixes for a type: FP32 keeps 13 and BF16 keeps 8 significant bits on a grid with unbounded exponent;
FP16 rounds as usual. -/
def roundSpecial (f : Fmt) (ftz : Bool) (m e : Int) : Nat × Nat :=
  if f = fp16 then f.roundFin 0 0 ftz m e
  else
    let keep : Int := if f = fp32 then 12 else 7
    let neg := decide (m < 0)
    let g := flog2 m.natAbs e - keep
    let n := (roundGrid 0 0 neg m.natAbs e g).1
    let p := flog2 n g
    if p < -126 then (f.signBit neg, flagUF)
    else if 128 ≤ p then (f.infBits neg, flagOF)
    else ((f.roundFin 0 0 false (if neg then -(n : Int) else n) g).1, 0)

/-! ### Reciprocal and reciprocal square root -/

/-- Folds a sticky bit into a truncated magnitude. -/
def withSticky (t : Nat) (exact : Bool) : Int := 2 * t + (if exact then 0 else 1)

/-- The greatest t below 2^n with t² at most x, on top of the bits found. -/
def sqrtBits (x : Nat) : Nat → Nat → Nat
  | 0, t => t
  | n + 1, t => sqrtBits x n (if (t + 2 ^ n) * (t + 2 ^ n) ≤ x then t + 2 ^ n else t)

/-- 1 / (m × 2^e), rounded. -/
def rcpFin (f : Fmt) (ftz : Bool) (m e : Int) : Nat × Nat :=
  let a := m.natAbs
  let k := a.log2 + 64
  let t := 2 ^ k / a
  let v := withSticky t (2 ^ k % a == 0)
  roundSpecial f ftz (if m < 0 then -v else v) (-(k : Int) - e - 1)

/-- 1 / √(m × 2^e) for a positive m, rounded. -/
def rsqFin (f : Fmt) (ftz : Bool) (m e : Int) : Nat × Nat :=
  let a := if e % 2 = 0 then m.natAbs else 2 * m.natAbs
  let h := if e % 2 = 0 then e / 2 else (e - 1) / 2
  let k := a.log2 + 64
  let x := 2 ^ (2 * k) / a
  let t := sqrtBits x (k + 1) 0
  roundSpecial f ftz (withSticky t (decide (t * t * a = 2 ^ (2 * k)))) (-(k : Int) - h - 1)

/-! ### Fixed-point brackets -/

/-- A bracket of a non-negative real, both ends scaled by 2^P. -/
abbrev Bracket := Nat × Nat

/-- Adds brackets. -/
def Bracket.add (a b : Bracket) : Bracket := (a.1 + b.1, a.2 + b.2)
/-- Multiplies brackets at precision `p`. -/
def Bracket.mul (p : Nat) (a b : Bracket) : Bracket := (a.1 * b.1 / 2 ^ p, a.2 * b.2 / 2 ^ p + 1)
/-- Divides brackets at precision `p`; the divisor is positive. -/
def Bracket.div (p : Nat) (a b : Bracket) : Bracket := (a.1 * 2 ^ p / b.2, a.2 * 2 ^ p / b.1 + 1)
/-- Divides a bracket by a number. -/
def Bracket.quot (a : Bracket) (n : Nat) : Bracket := (a.1 / n, a.2 / n + 1)

/-- The bracket of m × 2^e. -/
def Bracket.ofDy (p : Nat) (m : Nat) (e : Int) : Bracket :=
  if 0 ≤ e + p then (m * 2 ^ (e + p).toNat, m * 2 ^ (e + p).toNat)
  else (m / 2 ^ (-(e + p)).toNat, m / 2 ^ (-(e + p)).toNat + 1)

/-- The sum of 1 / (k 2^k) for `n` values of k from `k`: ln 2 up to its tail. -/
def ln2Terms (p : Nat) : Nat → Nat → Bracket
  | 0, _ => (0, 1)
  | n + 1, k => Bracket.add ((2 ^ p / 2 ^ k) / k, 2 ^ p / 2 ^ k / k + 1) (ln2Terms p n (k + 1))
/-- ln 2. -/
def ln2 (p : Nat) : Bracket := ln2Terms p (p + 2) 1

/-- The tail of e^a from the term `t` = a^k / k! on. -/
def expTerms (p : Nat) (a : Bracket) : Nat → Nat → Bracket → Bracket
  | 0, _, t => (0, 2 * t.2 + 2)
  | n + 1, k, t => Bracket.add t (expTerms p a n (k + 1) ((Bracket.mul p t a).quot (k + 1)))
/-- e^a for a below 1. -/
def expB (p : Nat) (a : Bracket) : Bracket := expTerms p a (p / 4 + 20) 0 (2 ^ p, 2 ^ p)

/-- The tail of the sum of z^(2j+1) / (2j+1) from the power `t` = z^(2j+1) on. -/
def atanhTerms (p : Nat) (z2 : Bracket) : Nat → Nat → Bracket → Bracket
  | 0, _, t => (0, 2 * t.2 + 2)
  | n + 1, j, t => Bracket.add (t.quot (2 * j + 1)) (atanhTerms p z2 n (j + 1) (Bracket.mul p t z2))
/-- ln of a bracketed number of [1, 2), by its atanh series. -/
def lnB (p : Nat) (m : Bracket) : Bracket :=
  let z := Bracket.div p (m.1 - 2 ^ p, m.2 - 2 ^ p) (m.1 + 2 ^ p, m.2 + 2 ^ p)
  let s := atanhTerms p (Bracket.mul p z z) (p / 3 + 8) 0 z
  (2 * s.1, 2 * s.2)

/-! ### Exp2, log2 and tanh -/

/-- Brackets of a value, low and high end as m × 2^e. -/
abbrev Ends := (Int × Int) × (Int × Int)

/-- The brackets of 2^(m × 2^e). -/
def exp2Ends (m e : Int) (p : Nat) : Ends :=
  let n := floorGrid m e 0
  let fr := addDy (m, e) (-n, 0)
  let r := expB p (Bracket.mul p (Bracket.ofDy p fr.1.toNat fr.2) (ln2 p))
  (((r.1 : Int), n - p), ((r.2 : Int), n - p))

/-- The brackets of log2 of m × 2^e, a positive number. -/
def log2Ends (m e : Int) (p : Nat) : Ends :=
  let k := flog2 m.toNat e
  let l := Bracket.div p (lnB p (Bracket.ofDy p m.toNat (e - k))) (ln2 p)
  (((l.1 : Int) + k * (2 ^ p : Nat), -(p : Int)), ((l.2 : Int) + k * (2 ^ p : Nat), -(p : Int)))

/-- The brackets of tanh of m × 2^e, a positive number: below 2^-16 between x - x³ and x - x³ / 4, from 32 on just below 1, else from
e^(-2x). -/
def tanhEnds (m e : Int) (p : Nat) : Ends :=
  let l := flog2 m.toNat e
  if l < -16 then (addDy (m, e) (-(m * m * m), 3 * e), addDy (m, e) (-(m * m * m), 3 * e - 2))
  else if 5 ≤ l then ((2 ^ 60 - 1, -60), (2 ^ 200 - 1, -200))
  else
    let x2 := Bracket.ofDy p m.toNat (e + 1)
    let c := ln2 p
    let n := x2.1 / c.2
    let r : Bracket := (x2.1 - n * c.2, x2.2 - n * c.1)
    let t := (Bracket.div p (2 ^ p, 2 ^ p) (expB p r)).quot (2 ^ n)
    let q := Bracket.div p (2 ^ p - t.2, 2 ^ p - t.1) (2 ^ p + t.1, 2 ^ p + t.2)
    (((q.1 : Int), -(p : Int)), ((q.2 : Int), -(p : Int)))

/-- The precisions tried in turn. -/
def precisions : List Nat := [96, 192, 384, 768]

/-- Rounds one end; an end that is zero has no rounding yet. -/
def roundEnd (f : Fmt) (ftz neg : Bool) (x : Int × Int) : Option (Nat × Nat) :=
  if x.1 = 0 then none else some (roundSpecial f ftz (if neg then -x.1 else x.1) x.2)

/-- Rounds a bracketed value: the first precision at which both ends round alike (02 R49). -/
def settleEnds (f : Fmt) (ftz neg : Bool) (ends : Nat → Ends) : List Nat → Nat × Nat
  | [] => ((roundEnd f ftz neg (ends 768).1).getD (0, 0))
  | p :: t =>
    let b := ends p
    match roundEnd f ftz neg b.1, roundEnd f ftz neg b.2 with
    | some x, some y => if x = y then x else settleEnds f ftz neg ends t
    | _, _ => settleEnds f ftz neg ends t

/-- 2^(m × 2^e), rounded: arguments beyond the exponent range overflow or vanish (07 R174), and integers are exact. -/
def exp2Fin (f : Fmt) (ftz : Bool) (m e : Int) : Nat × Nat :=
  if 11 ≤ flog2 m.natAbs e then (if m < 0 then (0, flagUF) else (f.infBits false, flagOF))
  else
    let n := floorGrid m e 0
    if (addDy (m, e) (-n, 0)).1 = 0 then roundSpecial f ftz 1 n else settleEnds f ftz false (exp2Ends m e) precisions

/-- log2 of a positive m × 2^e, rounded: exact for powers of two. -/
def log2Fin (f : Fmt) (ftz : Bool) (m e : Int) : Nat × Nat :=
  let k := flog2 m.toNat e
  if m = (2 ^ m.toNat.log2 : Nat) then (if k = 0 then (0, 0) else roundSpecial f ftz k 0)
  else settleEnds f ftz false (log2Ends m e) precisions

/-- tanh of a non-zero m × 2^e, rounded; of a subnormal of FP32 or BF16 it is ±0 with UF. -/
def tanhFin (f : Fmt) (ftz : Bool) (m e : Int) : Nat × Nat :=
  if f ≠ fp16 ∧ flog2 m.natAbs e < -126 then (f.signBit (decide (m < 0)), flagUF)
  else settleEnds f ftz (decide (m < 0)) (tanhEnds m.natAbs e) precisions

/-! ### The functions with their special inputs (02 R49) -/

/-- The function numbers of VFU (07 R172-R174). -/
def special (fn : Nat) (f : Fmt) (ftz : Bool) (x : Val) : Nat × Nat :=
  match fn, x with
  | _, .nan => (f.nanBits, 0)
  | 3, .zero s => (f.infBits s, flagDZ)
  | 3, .inf s => (f.signBit s, 0)
  | 3, .fin m e => rcpFin f ftz m e
  | 4, .zero s => (f.infBits s, flagDZ)
  | 4, .inf false => (0, 0)
  | 4, .inf true => (f.nanBits, flagIV)
  | 4, .fin m e => if m < 0 then (f.nanBits, flagIV) else rsqFin f ftz m e
  | 5, .zero _ => ((f.roundFin 0 0 false 1 0).1, 0)
  | 5, .inf s => (if s then 0 else f.infBits false, 0)
  | 5, .fin m e => exp2Fin f ftz m e
  | 6, .zero _ => (f.infBits true, flagDZ)
  | 6, .inf false => (f.infBits false, 0)
  | 6, .inf true => (f.nanBits, flagIV)
  | 6, .fin m e => if m < 0 then (f.nanBits, flagIV) else log2Fin f ftz m e
  | _, .zero s => (f.signBit s, 0)
  | _, .inf s => ((f.roundFin 0 0 false (if s then -1 else 1) 0).1, 0)
  | _, .fin m e => tanhFin f ftz m e

end Sys2Proof.Machine
end

