-- ==== Sys2Proof/Machine/VeCore.lean ====
section
/-! DEFINITION. The operand forms of the VE (07 R165-R168): rows through the window, lanes and their guard, the hazards of pending
accesses (08 R190), and the writing of results with their flags (02 R42). -/

namespace Sys2Proof.Machine

/-! ### Lanes and masks (07 R165) -/

/-- The guard of a VE instruction, per granule. -/
def Ve.guard (v : Ve) (gd : Guard) : BitVec 256 := if gd.neg = 1 then ~~~(v.pred gd.sel) else v.pred gd.sel

/-- LaneOn for lane `j` of width `w`. -/
def laneOn (g : BitVec 256) (w j : Nat) : Bool := g.getLsbD (j * w / 16)

/-- Lanes of a width. -/
def lanes (w : Nat) : Nat := 4096 / w

/-- Lane `j` of width `w` of a row. -/
def lane (row w j : Nat) : Nat := fld row (j * w) w

/-- The element width of an integer ty field (05 R115). -/
def intTy : Nat → Nat
  | 0 => 32
  | 1 => 16
  | _ => 8

/-- A row from its lanes, lane 0 lowest. -/
def rowOf (w : Nat) (l : List Nat) : Nat := l.foldr (fun x acc => x % 2 ^ w + 2 ^ w * acc) 0

/-- The bits of the lanes that are on, of the first `n` lanes of width `w`, each lane taken at width `gw` for its guard. -/
def maskOf (g : BitVec 256) (w gw n : Nat) : Nat :=
  rowOf w ((List.range n).map (fun j => if laneOn g gw j then 2 ^ w - 1 else 0))

/-! ### Rows through the window (03 R57-R58) -/

/-- The tile row a register names. -/
def Ve.rowNum (v : Ve) (n : Nat) : Nat := 64 * v.half + n

/-- The global address of a register's row. -/
def State.rowAt (s : State) (c : CtxId) (n : Nat) : Nat :=
  tileAt c.coreId (s.tilePos c (s.ve c).tile) ((s.ve c).rowNum n * 512)

/-- Whether an access writes (or, with `any`, touches) bytes of a tile row through the S-space alias. -/
def VeAccess.aliasRow (x : VeAccess) (tile row : Nat) : Bool :=
  let lo := 2 ^ 63 + 0x10000000 + tile * 65536 + row * 512
  x.bytes.any (fun b => decide (lo ≤ b.2.1.toNat) && decide (b.2.1.toNat < lo + 512))

/-- Whether a pending load lands in a tile row. -/
def VeAccess.lands (x : VeAccess) (tile row : Nat) : Bool := x.load && !x.done && x.tile == tile && x.row == row

/-- Whether a read of a tile row must wait: a pending store to it through the alias (08 R186). -/
def Ve.readWaits (v : Ve) (tile row : Nat) : Bool := v.pend.any (fun x => !x.load && !x.done && x.aliasRow tile row)

/-- Whether a write of a tile row must wait: a load pending into it, or a pending access to it through the alias (08 R190). -/
def Ve.writeWaits (v : Ve) (tile row : Nat) : Bool := v.pend.any (fun x => x.lands tile row || (!x.done && x.aliasRow tile row))

/-! ### Bytes under a pending load (08 R190) -/

/-- The global address of row byte 0 of an access's tile row. -/
def State.accessRow (s : State) (c : CtxId) (x : VeAccess) : Nat := tileAt c.coreId (s.tilePos c x.tile) (x.row * 512)

/-- A byte of a window reply, by the part it is known by. -/
def gotByte (got : List (Nat × List Byte)) (off : Nat) : Byte :=
  match got.find? (fun g => decide (g.1 ≤ off) && decide (off < g.1 + g.2.length)) with
  | some g => g.2.getD (off - g.1) 0
  | none => 0

/-- Whether a window byte of a load, by its row byte, has come. -/
def VeAccess.arrived (x : VeAccess) (off : Nat) : Bool := x.got.any (fun g => decide (g.1 ≤ off) && decide (off < g.1 + g.2.length))

/-- The place of a byte of a VE access, a VA byte's as its page gives it now; windows are apart. -/
def State.bytePlace (s : State) (c : CtxId) (a : Word) : Option Nat :=
  if wbit a 63 then (if 0x80000000 ≤ wfld a 0 32 then none else (s.sAddrs c (wfld a 0 32) 1).head?)
  else s.placeOf c.coreId .ve (s.asid c) a.toNat

/-- Whether two accesses of a slot's VE touch a common byte, one of them storing: one address, or two VAs of one place (04 R74). -/
def State.clash (s : State) (c : CtxId) (x y : VeAccess) : Bool :=
  (!x.load || !y.load)
    && x.bytes.any (fun b => y.bytes.any (fun e =>
      e.2.1 == b.2.1 || (!wbit b.2.1 63 && !wbit e.2.1 63 && b.2.1.toNat % 65536 == e.2.1.toNat % 65536
        && (s.bytePlace c b.2.1).isSome && s.bytePlace c b.2.1 == s.bytePlace c e.2.1)))

/-- The value a pending load brings to a row byte, when it can be known before the load lands: an address of VA or local S-space is read
now, unless an earlier store of the VE to it is still to come or the page is not there; a window byte once its reply has come. -/
def State.sample (s : State) (c : CtxId) (x : VeAccess) (m : Nat) : Option (Byte × State) :=
  match x.seen.find? (fun e => e.1 == m), x.bytes.find? (fun b => b.1 == m) with
  | some e, _ => some (e.2, s)
  | none, none => none
  | none, some (_, a, _) =>
    let w := wfld a 0 32
    if ((s.ve c).pend.takeWhile (fun y => y.id != x.id)).any (fun y => !y.done && s.clash c y x) ∨ x.parked then none
    else if wbit a 63 ∧ 0x80000000 ≤ w then (if x.arrived m then some (gotByte x.got m, s) else none)
    else
      match (if wbit a 63 then MapRes.ok (s.sAddrs c w 1) s else s.mapVA c.coreId .ve (s.asid c) a.toNat 1 true false) with
      | .ok as s' => if (s'.eccHit as).isSome then none else some (s'.rd (as.headD 0), s')
      | _ => none

/-- Reads one byte for a task's VE, a weak read that may miss some writes (04 R90). In its tiles, under a pending load it is the byte's old value or the loaded one, each being possible, and
a loaded value read so is the one that lands. -/
def State.lookByte (s : State) (c : CtxId) (h missed : Nat) : State × Byte :=
  if s.order.quiet = false ∧ h < tileAt ⟨0, 0⟩ 0 0 then ((s.seeByte (c.agent .ve) h missed).2, (s.seeByte (c.agent .ve) h missed).1)
  else if h < tileAt ⟨0, 0⟩ 0 0 then (s, s.rd h)
  else
  match (s.ve c).pend.find? (fun x => x.load && !x.done && x.bytes.any (fun b => s.accessRow c x + b.1 == h)) with
  | none => (s, s.rd h)
  | some x =>
    let m := h - s.accessRow c x
    if Config.freeBit s.freeCtr then (s.tick, s.rd h)
    else
      match s.tick.sample c x m with
      | none => (s.tick, s.rd h)
      | some (b, s') =>
        (s'.modVe c (fun v => { v with pend := v.pend.map (fun (y : VeAccess) => if y.id = x.id then { y with seen := (m, b) :: y.seen } else y) }), b)

/-- Reads several such bytes. -/
def State.lookBytes (s : State) (c : CtxId) : List Nat → List Nat → State × List Byte
  | [], _ => (s, [])
  | h :: t, ms =>
    let r := s.lookByte c h (ms.headD 0)
    let q := r.1.lookBytes c t ms.tail
    (q.1, r.2 :: q.2)

/-- The value of a register's row. -/
def State.readRow (s : State) (c : CtxId) (n : Nat) : State × Nat :=
  let v := s.ve c
  let base := s.rowAt c n
  if v.pend.any (fun x => x.lands v.tile (v.rowNum n)) then
    let r := s.lookBytes c (rangeFrom base 512) []
    (r.1, leNat r.2)
  else (s, s.rdNat base 512)

/-- Reads several rows. -/
def State.readRows (s : State) (c : CtxId) : List Nat → State × List Nat
  | [] => (s, [])
  | n :: t =>
    let r := s.readRow c n
    let q := r.1.readRows c t
    (q.1, r.2 :: q.2)

/-- The S-space alias address of a byte of a register's row. -/
def Ve.aliasOf (v : Ve) (n off : Nat) : Nat := 0x10000000 + v.tile * 65536 + v.rowNum n * 512 + off

/-- The first uncorrectable word among the bytes of the rows that an instruction uses, as its alias address (07 R168, 03 R72). The rows count
in the order of their operands; an arithmetic instruction is taken to use all of each source row, but for the bytes that 07 R175 and R178
leave unread (log entry 77). -/
def State.rowEcc (s : State) (c : CtxId) (used : Nat → Nat → Bool) (rows : List Nat) : Option Nat :=
  let hit (e : Nat × Nat) : Option Nat :=
    ((List.range 64).find? (fun w =>
      s.ecc.contains (s.rowAt c e.2 + 8 * w) && (List.range 8).any (fun i => used e.1 (8 * w + i)))).map (fun w => (s.ve c).aliasOf e.2 (8 * w))
  if s.ecc.isEmpty then none else (((List.range rows.length).zip rows).filterMap hit).head?

/-- Writes the bits of a mask of a register's row. A byte of which only a nibble is written counts as written, with its other nibble as it was, for an
uncorrectable word too: the model's choice (log entry 116). -/
def State.writeRow (s : State) (c : CtxId) (n val mask : Nat) : State :=
  let base := s.rowAt c n
  let old := s.rdNat base 512
  let new := (old &&& (mask ^^^ (2 ^ 4096 - 1))) ||| (val &&& mask)
  s.store ((List.range 512).filterMap (fun m =>
    if fld mask (8 * m) 8 = 0 then none else some (base + m, BitVec.ofNat 8 (fld new (8 * m) 8))))

/-- Runs a VE operation on rows: the tile must be the task's, the commit interlock and the hazards of pending accesses hold it, and an
uncorrectable source traps before anything is written (07 R166-R168, 08 R190). It acquires what the MRET of its tile has left (04 R84). `used` tells the bytes of each source row it uses, and with
`faults` false it faults at nothing (08 R194). -/
def State.onRowBytes (s : State) (reads writes : List Nat) (used : Nat → Nat → Bool) (faults : Bool) (f : List Nat → State → EngOut) :
    EngOut :=
  let c := s.agent.ctx
  let v := s.ve c
  if s.tileCount c ≤ v.tile ∧ faults then .trap 0x06 (zx v.tile) s
  else if s.owned c v.tile || s.exchanging c v.tile then .wait .interlock s
  else if writes.any (fun n => v.writeWaits v.tile (v.rowNum n)) || reads.any (fun n => v.readWaits v.tile (v.rowNum n)) then
    .wait (.counter 0) s
  else
    match s.rowEcc c used reads with
    | some a => .trap 0x08 (zx a) s
    | none =>
      let r := (s.acquire s.agent (fun h => h == .tile c v.tile)).readRows c reads
      f r.2 r.1

/-- Runs a VE operation on whole rows. -/
def State.onRows (s : State) (reads writes : List Nat) (f : List Nat → State → EngOut) : EngOut :=
  s.onRowBytes reads writes (fun _ _ => true) true f

/-! ### Draws and flags (02 R40, R42) -/

/-- Steps the generator at each position in turn, when the mode is SR. -/
def Ve.draws (v : Ve) : List Nat → List Nat × Ve
  | [] => ([], v)
  | b :: t =>
    if v.cfg.mode = 4 then
      let r := v.srStep b
      let q := Ve.draws r.2 t
      (r.1.toNat :: q.1, q.2)
    else
      let q := Ve.draws v t
      (0 :: q.1, q.2)

/-- Joins flags. -/
def orFlags (l : List Nat) : Nat := l.foldl (· ||| ·) 0

/-- Ends a VE operation that raised flags: they stick, and an enabled one traps after the instruction has completed (08 R204). -/
def State.raise (s : State) (cost flags : Nat) : EngOut :=
  let c := s.agent.ctx
  let trap := (s.ve c).cfg.trapping flags
  let s := s.modVe c (fun v => { v with cfg := v.cfg.raise flags })
  if trap then .doneTrap cost 0x0C (zx flags) s else .done cost s

/-- Writes a predicate; p15 is not written (08 R195). -/
def Ve.setPred (v : Ve) (i : Nat) (b : Nat) : Ve := if i = 15 then v else { v with p := setNth v.p i (BitVec.ofNat 256 b) }

/-! ### Lane-wise operations -/

/-- A lane-wise operation with a draw and flags per lane, over source rows `reads`, writing row `d`. -/
def State.laneOp (s : State) (gd : Guard) (w d : Nat) (reads : List Nat) (draw : Bool) (cost : Nat)
    (f : VeCfg → List Nat → Nat → Nat → Nat × Nat) : Res :=
  s.engine (fun _ _ s =>
    s.onRows reads [d] (fun rows s =>
      let c := s.agent.ctx
      let v := s.ve c
      let g := v.guard gd
      let js := List.range (lanes w)
      let dr := if draw then v.draws (js.map (fun j => j * w / 8)) else (js.map (fun _ => 0), v)
      let res := (js.zip dr.1).map (fun p => f v.cfg rows p.1 p.2)
      let on := js.map (laneOn g w)
      let s := (s.setVe c dr.2).writeRow c d (rowOf w (res.map Prod.fst)) (maskOf g w w (lanes w))
      s.raise cost (orFlags ((res.zip on).map (fun p => if p.2 then p.1.2 else 0)))))

/-- A lane-wise operation on lane values alone, without flags. -/
def State.intOp (s : State) (gd : Guard) (w d : Nat) (reads : List Nat) (f : List Nat → Nat → Nat) : Res :=
  s.laneOp gd w d reads false 4 (fun _ rows j _ => (f rows j, 0))

/-- Writes a condition of each lane and its complement into a predicate pair (07 R180): a granule takes the lane of its lowest bit. -/
def State.cmpOp (s : State) (gd : Guard) (w pp : Nat) (reads : List Nat) (f : VeCfg → List Nat → Nat → Bool) : Res :=
  s.engine (fun _ _ s =>
    s.onRows reads [] (fun rows s =>
      let c := s.agent.ctx
      s.modVe c (fun v =>
        let g := v.guard gd
        let cond := (List.range (lanes w)).map (f v.cfg rows)
        let bit (old : BitVec 256) (inv : Bool) (i : Nat) : Bool :=
          let j := if w = 8 then 2 * i else i * 16 / w
          if laneOn g w j then (cond.getD j false != inv) else old.getLsbD i
        let lo := bitsNat ((List.range 256).map (bit (v.pred (2 * pp)) false))
        let hi := bitsNat ((List.range 256).map (bit (v.pred (2 * pp + 1)) true))
        (v.setPred (2 * pp) lo).setPred (2 * pp + 1) hi)
      |> EngOut.done 4))

end Sys2Proof.Machine
end

