-- ==== Sys2Proof/Machine/VeArith.lean ====
section
/-! DEFINITION. The VE's arithmetic, conversion, comparison, lane movement and reductions (07 R170-R184). -/

namespace Sys2Proof.Machine

/-! ### Float arithmetic (07 R170-R171) -/

/-- Lane `j` of row `k` of the rows read, flushed (02 R41). -/
def floatLane (c : VeCfg) (f : Fmt) (rows : List Nat) (k j : Nat) : Val :=
  (f.decode (lane (rows.getD k 0) f.width j)).flush c.ftz f

/-- A float operation whose value is the rounded sum of terms; `products` are the factors tested for an infinity times a zero. -/
def State.floatOp (s : State) (gd : Guard) (d t : Nat) (reads : List Nat) (cost : Nat)
    (f : (Nat → Val) → List Val × Bool) : Res :=
  let fm := floatTy t
  s.laneOp gd fm.width d reads true cost (fun c rows j u =>
    let r := f (fun k => floatLane c fm rows k j)
    if r.2 then (fm.nanBits, flagIV) else fm.sum c.mode u c.ftz r.1)

def execVadd (gd : Guard) (d a b t : Nat) (s : State) : Res :=
  s.floatOp gd d t [a, b] 4 (fun x => ([x 0, x 1], false))
def execVsub (gd : Guard) (d a b t : Nat) (s : State) : Res :=
  s.floatOp gd d t [a, b] 4 (fun x => ([x 0, (x 1).negate], false))
def execVmul (gd : Guard) (d a b t : Nat) (s : State) : Res :=
  s.floatOp gd d t [a, b] 4 (fun x => ([(x 0).mul (x 1)], infTimesZero (x 0) (x 1)))
def execVfma (gd : Guard) (d a b t : Nat) (s : State) : Res :=
  s.floatOp gd d t [a, b, d] 8 (fun x => ([(x 0).mul (x 1), x 2], infTimesZero (x 0) (x 1)))
def execVfms (gd : Guard) (d a b t : Nat) (s : State) : Res :=
  s.floatOp gd d t [a, b, d] 8 (fun x => ([(x 0).mul (x 1), (x 2).negate], infTimesZero (x 0) (x 1)))

/-- The encoding of an operand as VMAX and VMIN return it: a flushed value as its zero, a NaN canonical (07 R171). -/
def keptBits (f : Fmt) (ftz : Bool) (bits : Nat) : Nat :=
  let v := f.decode bits
  if v.isNan then f.nanBits else if ftz && v.subnormal f then f.signBit v.neg else bits

/-- maximumNumber (`most`) or minimumNumber of two encodings (07 R171). -/
def chooseBits (f : Fmt) (most : Bool) (x y : Nat) : Nat :=
  let a := f.decode x
  let b := f.decode y
  if a.isNan then (if b.isNan then f.nanBits else y)
  else if b.isNan then x
  else if most then (if a.below b then y else x)
  else if b.below a then y else x

/-- VMAX and VMIN. -/
def State.chooseOp (s : State) (gd : Guard) (d a b t : Nat) (most : Bool) : Res :=
  let f := floatTy t
  s.laneOp gd f.width d [a, b] false 4 (fun c rows j _ =>
    (chooseBits f most (keptBits f c.ftz (lane (rows.getD 0 0) f.width j)) (keptBits f c.ftz (lane (rows.getD 1 0) f.width j)), 0))

def execVmax (gd : Guard) (d a b t : Nat) (s : State) : Res := s.chooseOp gd d a b t true
def execVmin (gd : Guard) (d a b t : Nat) (s : State) : Res := s.chooseOp gd d a b t false

/-! ### Single-operand functions (07 R172-R174) -/

/-- VABS and VNEG: the sign after flushing; a NaN gives the canonical NaN. -/
def State.signOp (s : State) (gd : Guard) (d a t : Nat) (g : Bool → Bool) : Res :=
  let f := floatTy t
  s.laneOp gd f.width d [a] false 4 (fun c rows j _ =>
    let x := keptBits f c.ftz (lane (rows.getD 0 0) f.width j)
    if (f.decode x).isNan then (f.nanBits, 0)
    else (x % 2 ^ (f.width - 1) + f.signBit (g (x.testBit (f.width - 1))), 0))

def execVabs (gd : Guard) (d a t : Nat) (s : State) : Res := s.signOp gd d a t (fun _ => false)
def execVneg (gd : Guard) (d a t : Nat) (s : State) : Res := s.signOp gd d a t (fun b => !b)

/-- The class bit of a raw encoding (07 R173). -/
def classOf (f : Fmt) (bits : Nat) : Nat :=
  let v := f.decode bits
  match v with
  | .nan => 2 ^ 8
  | .inf s => if s then 1 else 2 ^ 7
  | .zero s => if s then 2 ^ 3 else 2 ^ 4
  | .fin m _ =>
    if v.subnormal f then (if m < 0 then 2 ^ 2 else 2 ^ 5) else if m < 0 then 2 else 2 ^ 6

def execVclass (gd : Guard) (d a t : Nat) (s : State) : Res :=
  let f := floatTy t
  s.laneOp gd f.width d [a] false 4 (fun _ rows j _ => (classOf f (lane (rows.getD 0 0) f.width j), 0))

/-- VRCP, VRSQ, VEXP2, VLOG2 and VTANH, by their function number (07 R174). -/
def State.specialOp (s : State) (gd : Guard) (d a t fn : Nat) : Res :=
  let f := floatTy t
  s.laneOp gd f.width d [a] false 8 (fun c rows j _ => special fn f c.ftz (floatLane c f rows 0 j))

def execVrcp (gd : Guard) (d a t : Nat) (s : State) : Res := s.specialOp gd d a t 3
def execVrsq (gd : Guard) (d a t : Nat) (s : State) : Res := s.specialOp gd d a t 4
def execVexp2 (gd : Guard) (d a t : Nat) (s : State) : Res := s.specialOp gd d a t 5
def execVlog2 (gd : Guard) (d a t : Nat) (s : State) : Res := s.specialOp gd d a t 6
def execVtanh (gd : Guard) (d a t : Nat) (s : State) : Res := s.specialOp gd d a t 7

/-! ### Conversion (07 R175-R178) -/

/-- The source value of element `j` in a format code (02 R33, R36). -/
def sourceElem (sf row j : Nat) : Val :=
  if sf = 8 then decodeCode 8 (lane row 8 (j / 2)) j else decodeCode sf (lane row (codeWidth sf) j) j

/-- The working format of a source (02 R41). -/
def workingFmt (sf : Nat) : Fmt :=
  match sf with
  | 1 => bf16
  | 2 => fp16
  | _ => fp32

/-- One converted element: encoding and flags (07 R176). -/
def convElem (df mode u : Nat) (ftz : Bool) (x : Val) : Nat × Nat :=
  match floatCode df with
  | some f => f.round mode u (ftz && decide (df ≤ 2)) x
  | none =>
    let r := convInt mode u (intRange df).1 (intRange df).2 x
    ((r.1 % 2 ^ codeWidth df).toNat, r.2)

/-- Writes the elements of a conversion: `n` elements of width `dw`, guarded at width `gw`. N4X elements are written by pairs under the
even lane. -/
def State.convWrite (s : State) (gd : Guard) (d n dw gw : Nat) (pairs : Bool) (v' : Ve) (res : List (Nat × Nat)) : EngOut :=
  let c := s.agent.ctx
  let g := (s.ve c).guard gd
  let s := s.setVe c v'
  if pairs then
    let on := (List.range (n / 2)).map (fun m => laneOn g gw (2 * m))
    let s := s.writeRow c d (rowOf 8 (res.map Prod.fst)) (rowOf 8 (on.map (fun b => if b then 255 else 0)))
    s.raise 4 (orFlags ((res.zip on).map (fun p => if p.2 then p.1.2 else 0)))
  else
    let on := (List.range n).map (laneOn g gw)
    let s := s.writeRow c d (rowOf dw (res.map Prod.fst)) (maskOf g dw gw n)
    s.raise 4 (orFlags ((res.zip on).map (fun p => if p.2 then p.1.2 else 0)))

def execVcvt (gd : Guard) (d a sf df : Nat) (s : State) : Res :=
  let w := max (codeWidth sf) (codeWidth df)
  let n := lanes w
  s.engine (fun _ _ s =>
    s.onRowBytes [a] [d] (fun _ m => decide (m < n * codeWidth sf / 8)) true (fun rows s =>
      let v := s.ve s.agent.ctx
      let dr := v.draws ((List.range n).map (fun j => j * codeWidth df / 8))
      let x (j : Nat) : Val := (sourceElem sf (rows.getD 0 0) j).flush v.cfg.ftz (workingFmt sf)
      if df = 8 then
        s.convWrite gd d n 4 w true dr.2 ((List.range (n / 2)).map (fun m => n4xEncode v.cfg.mode (x (2 * m)) (x (2 * m + 1))))
      else
        s.convWrite gd d n (codeWidth df) w false dr.2
          (((List.range n).zip dr.1).map (fun p => convElem df v.cfg.mode p.2 v.cfg.ftz (x p.1)))))

/-- The format code of a VRQ type (05 R115). -/
def vrqCode : Nat → Nat
  | 0 => 3
  | 1 => 4
  | 2 => 5
  | _ => 8

def execVrq (gd : Guard) (d a b t : Nat) (s : State) : Res :=
  let code := vrqCode t
  let w := codeWidth code
  let n := lanes w
  s.engine (fun _ _ s =>
    s.onRowBytes [a, b] [d] (fun i m => i == 0 || decide (m < n / 32)) true (fun rows s =>
      let v := s.ve s.agent.ctx
      let dr := v.draws ((List.range n).map (fun j => j * w / 8))
      let y (j : Nat) : Val := (sourceElem code (rows.getD 0 0) j).scale (-(signed 8 (lane (rows.getD 1 0) 8 (j / 32))))
      if code = 8 then
        s.convWrite gd d n 4 w true dr.2 ((List.range (n / 2)).map (fun m => n4xEncode v.cfg.mode (y (2 * m)) (y (2 * m + 1))))
      else
        s.convWrite gd d n w w false dr.2 (((List.range n).zip dr.1).map (fun p => convElem code v.cfg.mode p.2 false (y p.1)))))

/-- VPACK (07 R179): the low halves of two rows. -/
def execVpack (gd : Guard) (d a b t : Nat) (s : State) : Res :=
  let w := intTy t
  let l := lanes w
  s.intOp gd (w / 2) d [a, b] (fun rows j =>
    if j < l then lane (rows.getD 0 0) w j % 2 ^ (w / 2) else lane (rows.getD 1 0) w (j - l) % 2 ^ (w / 2))

/-- VUNPK (07 R179): half a row, sign-extended. -/
def execVunpk (gd : Guard) (d a h t : Nat) (s : State) : Res :=
  let w := intTy t
  s.intOp gd w d [a] (fun rows j => (signed (w / 2) (lane (rows.getD 0 0) (w / 2) (h * lanes w + j)) % 2 ^ w).toNat)

/-! ### Comparison and selection (07 R180-R181) -/

/-- The condition of VCMPF. -/
def condFloat (cc : Nat) (x y : Val) : Bool :=
  match cc with
  | 0 => x.eq y
  | 1 => !x.eq y
  | 2 => x.lt y
  | 3 => x.lt y || x.eq y
  | _ => x.isNan || y.isNan

def execVcmpf (gd : Guard) (p a b cc t : Nat) (s : State) : Res :=
  let f := floatTy t
  s.cmpOp gd f.width p [a, b] (fun c rows j => condFloat cc (floatLane c f rows 0 j) (floatLane c f rows 1 j))

/-- The condition of VCMPI at a width. -/
def condInt (cc w x y : Nat) : Bool :=
  match cc with
  | 0 => x == y
  | 1 => x != y
  | 2 => decide (signed w x < signed w y)
  | 3 => decide (signed w x ≤ signed w y)
  | 4 => decide (x < y)
  | _ => decide (x ≤ y)

def execVcmpi (gd : Guard) (p a b cc t : Nat) (s : State) : Res :=
  let w := intTy t
  s.cmpOp gd w p [a, b] (fun _ rows j => condInt cc w (lane (rows.getD 0 0) w j) (lane (rows.getD 1 0) w j))

def execVmov (gd : Guard) (d a t : Nat) (s : State) : Res := s.intOp gd (intTy t) d [a] (fun rows j => lane (rows.getD 0 0) (intTy t) j)

/-! ### Integer and bitwise arithmetic (07 R182) -/

/-- A two-operand integer operation. -/
def State.int2 (s : State) (gd : Guard) (d a b t : Nat) (f : Nat → Nat → Nat → Nat) : Res :=
  let w := intTy t
  s.intOp gd w d [a, b] (fun rows j => f w (lane (rows.getD 0 0) w j) (lane (rows.getD 1 0) w j))

def execViadd (gd : Guard) (d a b t : Nat) (s : State) : Res := s.int2 gd d a b t (fun w x y => (x + y) % 2 ^ w)
def execVisub (gd : Guard) (d a b t : Nat) (s : State) : Res := s.int2 gd d a b t (fun w x y => (x + (2 ^ w - y)) % 2 ^ w)
def execVimul (gd : Guard) (d a b t : Nat) (s : State) : Res := s.int2 gd d a b t (fun w x y => x * y % 2 ^ w)
def execVimax (gd : Guard) (d a b t : Nat) (s : State) : Res :=
  s.int2 gd d a b t (fun w x y => if signed w x < signed w y then y else x)
def execVimin (gd : Guard) (d a b t : Nat) (s : State) : Res :=
  s.int2 gd d a b t (fun w x y => if signed w y < signed w x then y else x)
def execVimaxn (gd : Guard) (d a b t : Nat) (s : State) : Res := s.int2 gd d a b t (fun _ x y => max x y)
def execViminn (gd : Guard) (d a b t : Nat) (s : State) : Res := s.int2 gd d a b t (fun _ x y => min x y)
def execVand (gd : Guard) (d a b t : Nat) (s : State) : Res := s.int2 gd d a b t (fun _ x y => x &&& y)
def execVor (gd : Guard) (d a b t : Nat) (s : State) : Res := s.int2 gd d a b t (fun _ x y => x ||| y)
def execVxor (gd : Guard) (d a b t : Nat) (s : State) : Res := s.int2 gd d a b t (fun _ x y => x ^^^ y)
def execVandn (gd : Guard) (d a b t : Nat) (s : State) : Res := s.int2 gd d a b t (fun w x y => x &&& (y ^^^ (2 ^ w - 1)))
def execVshl (gd : Guard) (d a b t : Nat) (s : State) : Res :=
  s.int2 gd d a b t (fun w x y => if w ≤ y % 256 then 0 else x * 2 ^ (y % 256) % 2 ^ w)
def execVshr (gd : Guard) (d a b t : Nat) (s : State) : Res :=
  s.int2 gd d a b t (fun w x y => if w ≤ y % 256 then 0 else x / 2 ^ (y % 256))
def execVsha (gd : Guard) (d a b t : Nat) (s : State) : Res :=
  s.int2 gd d a b t (fun w x y => (signed w x / (2 ^ min (y % 256) w : Nat) % 2 ^ w).toNat)

/-! ### Lane movement (07 R183) -/

/-- An address register of the pass. -/
def Stream.areg (x : Stream) (k : Nat) : Nat := (x.a.getD k 0).toNat

/-- The address register `k` of the running agent. -/
def State.areg (s : State) (k : Nat) : Nat := (s.stream s.agent).areg k

def execVbcast (gd : Guard) (d a k t : Nat) (s : State) : Res :=
  let w := intTy t
  s.intOp gd w d [a] (fun rows _ => lane (rows.getD 0 0) w (s.areg k % lanes w))
def execViota (gd : Guard) (d k t : Nat) (s : State) : Res :=
  let w := intTy t
  s.intOp gd w d [] (fun _ j => (s.areg k + j) % 2 ^ w)
def execVshuf (gd : Guard) (d a b t : Nat) (s : State) : Res :=
  let w := intTy t
  s.intOp gd w d [a, b] (fun rows j => lane (rows.getD 0 0) w (lane (rows.getD 1 0) w j % lanes w))
def execVslide (gd : Guard) (d a k r t : Nat) (s : State) : Res :=
  let w := intTy t
  let n := s.areg k
  s.intOp gd w d [a] (fun rows j =>
    if r = 0 then (if j + n < lanes w then lane (rows.getD 0 0) w (j + n) else 0)
    else if n ≤ j then lane (rows.getD 0 0) w (j - n) else 0)

/-! ### Reductions (07 R184) -/

/-- A reduction: the participating lanes of a row into lane 0, under one draw at byte 0 when the mode is SR. -/
def State.reduce (s : State) (gd : Guard) (w d a : Nat) (draw : Bool) (f : VeCfg → Nat → List Nat → Nat × Nat) : Res :=
  s.engine (fun _ _ s =>
    s.onRows [a] [d] (fun rows s =>
      let c := s.agent.ctx
      let v := s.ve c
      let g := v.guard gd
      let parts := ((List.range (lanes w)).filter (laneOn g w)).map (lane (rows.getD 0 0) w)
      let dr := if draw then v.draws [0] else ([0], v)
      let r := f v.cfg (dr.1.headD 0) parts
      ((s.setVe c dr.2).writeRow c d (r.1 % 2 ^ w) (2 ^ w - 1)).raise 8 r.2))

def execVredadd (gd : Guard) (d a t : Nat) (s : State) : Res :=
  let f := floatTy t
  s.reduce gd f.width d a true (fun c u parts => f.sum c.mode u c.ftz (parts.map (fun x => (f.decode x).flush c.ftz f)))

/-- The maximumNumber or minimumNumber of the participants. -/
def reduceChoose (f : Fmt) (most ftz : Bool) (parts : List Nat) : Nat :=
  match parts.map (keptBits f ftz) with
  | [] => f.infBits most
  | x :: t => t.foldl (chooseBits f most) x

def execVredmax (gd : Guard) (d a t : Nat) (s : State) : Res :=
  let f := floatTy t
  s.reduce gd f.width d a false (fun c _ parts => (reduceChoose f true c.ftz parts, 0))
def execVredmin (gd : Guard) (d a t : Nat) (s : State) : Res :=
  let f := floatTy t
  s.reduce gd f.width d a false (fun c _ parts => (reduceChoose f false c.ftz parts, 0))
def execVrediadd (gd : Guard) (d a t : Nat) (s : State) : Res :=
  let w := intTy t
  s.reduce gd w d a false (fun _ _ parts => (parts.foldl (· + ·) 0 % 2 ^ w, 0))

end Sys2Proof.Machine
end

