-- ==== Sys2Proof/Machine/VeMem.lean ====
section
/-! DEFINITION. The VE's memory accesses, predicates, votes, pails, signals, window and configuration (08 R186-R205). -/

namespace Sys2Proof.Machine

/-! ### Addresses (08 R186-R187) -/

def execAadd (k i : Nat) (s : State) : Res :=
  s.engine (fun _ x s =>
    .done 2 (s.modStream s.agent (fun y => { y with a := setNth y.a k (x.a.getD k 0 + wordOfInt (signed 16 i)) })))
def execAli (k i : Nat) (s : State) : Res :=
  s.engine (fun _ _ s => .done 2 (s.modStream s.agent (fun y => { y with a := setNth y.a k (wordOfInt (signed 16 i)) })))

/-- Where a 64-bit VE address lies: VA, a local byte of S-space, or a window and offset (08 R186). -/
inductive VLoc where
  | va (a : Nat)
  | near (a : Nat)
  | window (w off : Nat)

/-- The space of a VE address, or the cause (08 R186). -/
def vLoc (x : Word) (n : Nat) : Except (Nat × Word) VLoc :=
  if wbit x 63 then
    if wfld x 32 31 ≠ 0 then .error (0x04, x)
    else
      let a := wfld x 0 32
      match sLoc a n with
      | .hole => .error (0x04, zx a)
      | .icb _ _ => .error (0x06, zx a)
      | .window w off => .ok (.window w off)
      | .scratch => if inDocentArea a n then .error (0x06, zx a) else .ok (.near a)
      | .tile _ _ => .ok (.near a)
  else if wfld x 56 7 ≠ 0 then .error (0x05, x)
  else .ok (.va x.toNat)

/-- The checks at issue of one run of on bytes (08 R189): space, holes, tile count and window. `none` in the answer asks for the commit
interlock. -/
def State.vCheck (s : State) (c : CtxId) (x : Word) (n : Nat) (load : Bool) : Except (Nat × Word) (Option VLoc) :=
  match vLoc x n with
  | .error e => .error e
  | .ok (.near a) =>
    if 0x10000000 ≤ a then
      match (tilesOf a n).find? (fun t => s.tileCount c ≤ t) with
      | some t => .error (0x06, zx t)
      | none => .ok (if (tilesOf a n).any (fun t => s.owned c t || s.exchanging c t) then none else some (.near a))
    else .ok (some (.near a))
  | .ok (.window w off) =>
    if s.windowOk c w off n load (!load) then .ok (some (.window w off)) else .error (0x07, windowVal false w off)
  | .ok l => .ok (some l)

/-- A run of on bytes: its row byte, its address and its length. -/
abbrev Run := Nat × Word × Nat

/-- Checks every run in order. -/
def State.vCheckRuns (s : State) (c : CtxId) (load : Bool) : List Run → Except (Nat × Word) (Option (List (Run × VLoc)))
  | [] => .ok (some [])
  | r :: t =>
    match s.vCheck c r.2.1 r.2.2 load with
    | .error e => .error e
    | .ok none => .ok none
    | .ok (some l) =>
      match s.vCheckRuns c load t with
      | .error e => .error e
      | .ok none => .ok none
      | .ok (some ls) => .ok (some ((r, l) :: ls))

/-- The first run that leaves its space or touches a hole: the whole access then faults so, whatever its other bytes meet (03 R54). -/
def vHole (runs : List Run) : Option (Nat × Word) :=
  runs.findSome? (fun r => match vLoc r.2.1 r.2.2 with
    | .error (c, v) => if c = 0x06 then none else some (c, v)
    | .ok _ => none)

/-- Checks an access: holes over all its on bytes, then every run in order. -/
def State.vCheckAll (s : State) (c : CtxId) (load : Bool) (runs : List Run) : Except (Nat × Word) (Option (List (Run × VLoc))) :=
  match vHole runs with
  | some e => .error e
  | none => s.vCheckRuns c load runs

/-! ### Window traffic of an access (03 R60) -/

/-- Joins window runs that continue one another within a 512-byte piece of the window, each of the runs that come of it being one posted write; how many
writes an access with scattered lanes counts is the model's choice (log entry 111). -/
def joinRuns : List (Nat × Nat × Nat × Nat) → List (Nat × Nat × Nat × Nat)
  | (w, off, n, m) :: rest =>
    match joinRuns rest with
    | (w', off', n', m') :: t =>
      if w = w' ∧ off + n = off' ∧ off / 512 = (off' + n' - 1) / 512 ∧ m + n = m' then (w, off, n + n', m) :: t
      else (w, off, n, m) :: (w', off', n', m') :: t
    | [] => [(w, off, n, m)]
  | [] => []

/-- The window runs of a checked access: window, offset, length, row byte. -/
def windowRuns (l : List (Run × VLoc)) : List (Nat × Nat × Nat × Nat) :=
  l.filterMap (fun p => match p.2 with | .window w off => some (w, off, p.1.2.2, p.1.1) | _ => none)

/-- The bytes of a piece: those of the access that lie in it; of several lanes at one address the highest one's remains (08 R193). -/
def pieceData (bytes : List (Nat × Word × Byte)) (w off n : Nat) : List (Option Byte) :=
  let back := bytes.reverse
  (List.range n).map (fun i =>
    (back.find? (fun b => b.2.1.toNat == 2 ^ 63 + 0x80000000 + w * 0x08000000 + off + i)).map (fun b => b.2.2))

/-- The posted pieces of a row store through windows: one per 512-byte piece of a window that it touches (03 R60). -/
def State.storePieces (s : State) (c : CtxId) (rowWide : Bool) (runs : List (Nat × Nat × Nat × Nat)) (bytes : List (Nat × Word × Byte)) :
    List Piece :=
  let spans : List (Nat × Nat × Nat) :=
    if rowWide then
      let keys := (runs.map (fun r => (r.1, r.2.1 / 512))).eraseDups
      keys.map (fun k =>
        let inn := runs.filter (fun r => r.1 == k.1 && r.2.1 / 512 == k.2)
        let lo := inn.foldl (fun m r => min m r.2.1) (2 ^ 32)
        let hi := inn.foldl (fun m r => max m (r.2.1 + r.2.2.1)) 0
        (k.1, lo, hi - lo))
    else runs.map (fun r => (r.1, r.2.1, r.2.2.1))
  spans.map (fun p =>
    let x := s.window c.die p.1
    ⟨p.1, p.2.1, x.tpkg, x.tdie, x.tbase + p.2.1, x.key, pieceData bytes p.1 p.2.1 p.2.2, 0⟩)

/-- The window reads of a load: window, offset and target as captured at issue (03 R73), and the length. -/
def State.loadPieces (s : State) (c : CtxId) (runs : List (Nat × Nat × Nat × Nat)) : List Piece :=
  runs.map (fun r =>
    let x := s.window c.die r.1
    ⟨r.1, r.2.1, x.tpkg, x.tdie, x.tbase + r.2.1, x.key, List.replicate r.2.2.1 none, r.2.2.2⟩)

/-- Sends window reads in order as far as they may go: what is left, and the reads sent as their part and length. -/
def State.askPieces (s : State) (a : AgentId) (id : Nat) : List Piece → State × List Piece × List (Nat × Nat)
  | [] => (s, [], [])
  | p :: t =>
    match s.ask a.coreId p.tpkg p.tdie (.read a id p.part) (fun tag gen => .load p.tpkg p.tdie p.addr p.data.length a.die tag gen) with
    | none => (s, p :: t, [])
    | some s' =>
      let r := s'.askPieces a id t
      (r.1, r.2.1, (p.part, p.data.length) :: r.2.2)

/-- Whether two pieces touch a common byte of a target. -/
def Piece.meets (p q : Piece) : Bool :=
  p.tpkg == q.tpkg && p.tdie == q.tdie && decide (p.addr < q.addr + q.data.length) && decide (q.addr < p.addr + p.data.length)

/-- Whether the pieces of an access wait for those of an earlier one of its VE: of two accesses to a byte, one of them storing, the earlier
goes first (04 R74). -/
def VeAccess.follows (x y : VeAccess) : Bool := (!x.load || !y.load) && y.pieces.any (fun p => x.pieces.any p.meets)

/-- Changes an access in flight. -/
def State.modAccess (s : State) (c : CtxId) (id : Nat) (f : VeAccess → VeAccess) : State :=
  s.modVe c (fun v => { v with pend := v.pend.map (fun (x : VeAccess) => if x.id = id then f x else x) })

/-- Sends what an access still has to post or to read through its windows. -/
def State.sendAccess (s : State) (c : CtxId) (x : VeAccess) : State :=
  let a := c.agent .ve
  if x.pieces.isEmpty || ((s.ve c).pend.takeWhile (fun y => y.id != x.id)).any x.follows then s
  else if x.load then
    let r := s.askPieces a x.id x.pieces
    r.1.modAccess c x.id (fun y => { y with pieces := r.2.1, want := y.want ++ r.2.2 })
  else
    let r := s.sendPieces a x.id x.pieces
    r.1.modAccess c x.id (fun y => { y with pieces := r.2 })

/-- Sends what the VE accesses of a slot still have to send. -/
def State.pushVe (s : State) (c : CtxId) : State := (s.ve c).pend.foldl (fun s x => s.sendAccess c x) s

/-! ### Issue of an access (08 R188-R191) -/

/-- Accesses counted on a counter. -/
def Ve.counter (v : Ve) (d : Nat) : Nat := (v.pend.filter (fun x => x.ctr == d)).length

/-- Lets the completed accesses at the head of each counter leave it (08 R191). -/
def trimCounter (l : List VeAccess) (d : Nat) : List VeAccess :=
  match l with
  | [] => []
  | x :: t => if x.ctr = d then (if x.done then trimCounter t d else x :: t) else x :: trimCounter t d
/-- Trims all eight counters. -/
def Ve.trim (v : Ve) : Ve := { v with pend := (List.range 8).foldl trimCounter v.pend }

/-- Whether a store's alias bytes meet a row with a load pending into it (08 R190). -/
def Ve.aliasWaits (v : Ve) (runs : List Run) : Bool :=
  runs.any (fun r =>
    let a := r.2.1.toNat
    decide (2 ^ 63 + 0x10000000 ≤ a ∧ a < 2 ^ 63 + 0x10100000)
      && v.pend.any (fun x => x.lands ((a - 2 ^ 63 - 0x10000000) / 65536) ((a - 2 ^ 63) % 65536 / 512)))

/-- Whether an access would meet, were every lane on, a tile of the task that an engine owns or that is being exchanged (05 R102, 08 R190, R194). -/
def State.aliasHeld (s : State) (c : CtxId) (every : List Run) : Bool :=
  every.any (fun r => match vLoc r.2.1 r.2.2 with
    | .ok (.near a) => decide (0x10000000 ≤ a) && (tilesOf a r.2.2).any (fun t => s.owned c t || s.exchanging c t)
    | _ => false)

/-- An access acquires what the MRETs of the tiles that it meets have left (04 R84). -/
def State.acquireTiles (s : State) (c : CtxId) (runs : List Run) : State :=
  s.acquire (c.agent .ve) (fun h =>
    match h with
    | .tile d t => d == c && runs.any (fun r => match vLoc r.2.1 r.2.2 with
      | .ok (.near a) => decide (0x10000000 ≤ a) && (tilesOf a r.2.2).contains t
      | _ => false)
    | _ => false)

/-- Issues an access whose runs of on bytes and stored bytes are known: counter, checks, commit interlock, window traffic: that order is
the model's choice (log entry 114). Its stalls are those of `every`, the runs of all its lanes. -/
def State.issueAccess (s : State) (load : Bool) (vd dc : Nat) (rowWide : Bool) (every runs : List Run) (bytes : List (Nat × Word × Byte))
    (post : State → State) : EngOut :=
  let a := s.agent
  let c := a.ctx
  let v := s.ve c
  if 63 ≤ v.counter dc then .wait (.counter dc) s
  else
    match s.vCheckAll c load runs with
    | .error e => .trap e.1 e.2 s
    | .ok none => .wait .interlock s
    | .ok (some ls) =>
      if s.aliasHeld c every then .wait .interlock s
      else if !load && v.aliasWaits every then .wait (.counter dc) s
      else
        let wr := joinRuns (windowRuns ls)
        let acc : VeAccess := ⟨s.nextId, dc, load, v.tile, v.rowNum vd, (s.stream a).epc, bytes,
          if load then s.loadPieces c wr else s.storePieces c rowWide wr bytes, [], [], [], false, none, bytes.isEmpty, rowWide⟩
        .done 2 (post (((s.acquireTiles c every).named.modVe c (fun v => { v with pend := v.pend ++ [acc] }.trim)).sendAccess c acc))

/-- The on bytes of a row access at 64-byte runs: those of a run that has an on byte (08 R188). -/
def vmBytes (g : BitVec 256) (x : Word) (row : Nat) : List (Nat × Word × Byte) :=
  (List.range 512).filterMap (fun m =>
    if g.getLsbD (m / 2) then some (m, x + BitVec.ofNat 64 m, BitVec.ofNat 8 (fld row (8 * m) 8)) else none)

/-- The runs of on granules of a row access. -/
def vmRuns (g : BitVec 256) (x : Word) : List Run :=
  (List.range 256).filterMap (fun i => if g.getLsbD i then some (2 * i, x + BitVec.ofNat 64 (2 * i), 2) else none)

/-- VLD and VST (08 R188, R194): off bytes of the source row are not read, and with every lane off nothing faults. TVAL of a misaligned
access is its whole 64-bit address, in S-space too (log entry 79). -/
def State.rowAccess (s : State) (gd : Guard) (load : Bool) (d k dc o p : Nat) : Res :=
  s.engine (fun _ st s =>
    let g := (s.ve s.agent.ctx).guard gd
    s.onRowBytes (if load then [] else [d]) (if load then [d] else []) (fun _ m => g.getLsbD (m / 2)) (decide (g ≠ 0)) (fun rows s =>
      let off := wordOfInt (signed 6 o * 512)
      let base := st.a.getD k 0
      let x := if p = 0 then base + off else base
      let post (s : State) : State :=
        if p = 1 then s.modStream s.agent (fun y => { y with a := setNth y.a k (base + off) }) else s
      if g ≠ 0 ∧ x.toNat % 64 ≠ 0 then .trap 0x03 x s
      else s.issueAccess load d dc true (vmRuns (BitVec.allOnes 256) x) (vmRuns g x) (vmBytes g x (rows.headD 0)) post))

def execVld (gd : Guard) (d k c o p : Nat) (s : State) : Res := s.rowAccess gd true d k c o p
def execVst (gd : Guard) (d k c o p : Nat) (s : State) : Res := s.rowAccess gd false d k c o p

/-- VLDX and VSTX (08 R193-R194): lanes that are off use no byte of the index and source rows. -/
def State.indexAccess (s : State) (gd : Guard) (load : Bool) (d k b dc es : Nat) : Res :=
  let n := if es = 0 then 4 else 2
  s.engine (fun _ st s =>
    let g := (s.ve s.agent.ctx).guard gd
    let on := (List.range (lanes (8 * n))).filter (laneOn g (8 * n))
    s.onRowBytes (if load then [b] else [b, d]) (if load then [d] else []) (fun _ m => laneOn g (8 * n) (m / n)) (!on.isEmpty) (fun rows s =>
      let x (j : Nat) : Word := st.a.getD k 0 + BitVec.ofNat 64 (lane (rows.headD 0) (8 * n) j * n)
      let run (j : Nat) : Run := (j * n, x j, n)
      let bytes := (on.map (fun j => (List.range n).map (fun i =>
        (j * n + i, x j + BitVec.ofNat 64 i, BitVec.ofNat 8 (fld (rows.getD 1 0) (8 * (j * n + i)) 8))))).flatten
      match on.find? (fun j => (x j).toNat % n ≠ 0) with
      | some j => .trap 0x03 (x j) s
      | none => s.issueAccess load d dc false ((List.range (lanes (8 * n))).map run) (on.map run) bytes id))

def execVldx (gd : Guard) (d k b c e : Nat) (s : State) : Res := s.indexAccess gd true d k b c e
def execVstx (gd : Guard) (d k b c e : Nat) (s : State) : Res := s.indexAccess gd false d k b c e

def execDwait (c l : Nat) (s : State) : Res :=
  s.engine (fun _ _ s => if (s.ve s.agent.ctx).counter c ≤ l then .done 2 s else .wait (.counter c) s)

/-! ### Completion of an access (08 R189-R191) -/

/-- What performing an access comes to: the homes of its local bytes, a fault, an absent page, or nothing yet. -/
inductive Perform where
  | homes (l : List (Nat × Nat × Byte)) (s : State)
  | fault (cause : Nat) (v : Word) (s : State)
  | absent (va kind : Nat) (s : State)
  | busy

/-- The homes of the local bytes of an access, page by page in order; window bytes have none. `page` holds the last page translated. -/
def State.homes (s : State) (c : CtxId) (load : Bool) : List (Nat × Word × Byte) → Option (Nat × Nat) → List (Nat × Nat × Byte) → Perform
  | [], _, acc => .homes acc.reverse s
  | (m, x, b) :: t, page, acc =>
    let xn := x.toNat
    if wbit x 63 then
      let a := wfld x 0 32
      if 0x80000000 ≤ a then s.homes c load t page acc
      else s.homes c load t page ((m, (s.sAddrs c a 1).headD 0, b) :: acc)
    else
      match page with
      | some (vp, base) =>
        if xn / 65536 = vp then
          (if s.rowBusy c.die (base + xn % 65536 - vatAt c.die 0) 1 then .busy else s.homes c load t page ((m, base + xn % 65536, b) :: acc))
        else
          match s.mapVA c.coreId .ve (s.asid c) xn 1 load (!load) with
          | .fault cause va s' => .fault cause (zx va) s'
          | .absent va kind s' => .absent va kind s'
          | .busy _ => .busy
          | .ok as s' => s'.homes c load t (some (xn / 65536, as.headD 0 - xn % 65536)) ((m, as.headD 0, b) :: acc)
      | none =>
        match s.mapVA c.coreId .ve (s.asid c) xn 1 load (!load) with
        | .fault cause va s' => .fault cause (zx va) s'
        | .absent va kind s' => .absent va kind s'
        | .busy _ => .busy
        | .ok as s' => s'.homes c load t (some (xn / 65536, as.headD 0 - xn % 65536)) ((m, as.headD 0, b) :: acc)

/-- Writes some of a faulted load's bytes: each granule of the destination holds its old or its new value (08 R189). The cells are row
byte, address and value. -/
def State.landSome (s : State) (l : List (Nat × Nat × Byte)) : State :=
  let kept := l.filter (fun e => Config.freeBit (s.freeCtr + e.1 / 2))
  { s.store (kept.map Prod.snd) with freeCtr := s.freeCtr + 256 }

/-- Marks an access complete and lets counters fall. -/
def State.closeAccess (s : State) (c : CtxId) (id : Nat) : State :=
  ((s.modAccess c id (fun x => { x with done := true })).modVe c Ve.trim).progress (c.agent .ve)

/-- The window bytes of a load whose replies have come: row byte and value. -/
def VeAccess.landed (x : VeAccess) : List (Nat × Byte) :=
  x.bytes.filterMap (fun b =>
    if wbit b.2.1 63 ∧ 0x80000000 ≤ wfld b.2.1 0 32 ∧ x.arrived b.1 then some (b.1, gotByte x.got b.1) else none)

/-- The value TVAL takes for an uncorrectable word at a home of a load: its VA or S-space address, and in a row the word's own, which lies in the
access though its first byte be off (03 R72). -/
def VeAccess.eccVal (x : VeAccess) (hs : List (Nat × Nat × Byte)) (bad : Nat) : Word :=
  match hs.find? (fun h => h.2.1 == bad) with
  | some h =>
    match x.bytes.find? (fun b => b.1 == h.1) with
    | some b =>
      let v := if wbit b.2.1 63 then zx (wfld b.2.1 0 32) else b.2.1
      if x.wide then BitVec.ofNat 64 (v.toNat / 8 * 8) else v
    | none => 0
  | none => 0

/-- The cells a load writes from the homes of its local bytes and its window replies: row byte, address and value. A byte that an instruction
has read before keeps the value it read (08 R190). -/
def State.loadCells (s : State) (c : CtxId) (x : VeAccess) (hs : List (Nat × Nat × Byte)) : State × List (Nat × Nat × Byte) :=
  let r := s.lookBytes c (hs.map (fun h => h.2.1)) s.leeway.misses
  let value (e : Nat × Byte) : Byte := match x.seen.find? (fun y => y.1 == e.1) with | some y => y.2 | none => e.2
  let fresh := (hs.zip r.2).map (fun p => (p.1.1, p.2)) ++ x.landed
  (r.1, fresh.map (fun e => (e.1, s.accessRow c x + e.1, value e)))

/-- The home of one byte of a load, if its page or space gives one and no uncorrectable word holds it. -/
def State.byteHome (s : State) (c : CtxId) (a : Word) : Option Nat :=
  let h := if wbit a 63 then (if 0x80000000 ≤ wfld a 0 32 then none else (s.sAddrs c (wfld a 0 32) 1).head?)
    else
      match s.mapVA c.coreId .ve (s.asid c) a.toNat 1 true false with
      | .ok as _ => as.head?
      | _ => none
  h.filter (fun h => !s.ecc.contains (h / 8 * 8))

/-- Raises the fault of an access when it completes: a load may have landed in part, and a store writes nothing (08 R189). -/
def State.failAccess (s : State) (c : CtxId) (x : VeAccess) (cause : Nat) (v : Word) : State :=
  let s := if x.load then
      let r := s.loadCells c x (x.bytes.filterMap (fun b => (s.byteHome c b.2.1).map (fun h => (b.1, h, b.2.2))))
      r.1.landSome r.2
    else s
  (s.closeAccess c x.id).trapAgent (c.agent .ve) cause v

/-- The addresses of the local bytes of an access, S-space from 2^63 on. -/
def VeAccess.near (x : VeAccess) : List Nat :=
  (x.bytes.filter (fun b => !(wbit b.2.1 63 && decide (0x80000000 ≤ wfld b.2.1 0 32)))).map (fun b => b.2.1.toNat)

/-- Performs an access that its agent's earlier accesses and its window traffic do not hold: its bytes move, or it faults or parks. -/
def State.performAccess (s : State) (c : CtxId) (x : VeAccess) : State :=
  match x.failed, s.homes c x.load x.bytes none [] with
  | _, .busy => s
  | some (cause, v), _ => s.failAccess c x cause v
  | none, .absent va kind s' =>
    (s'.modAccess c x.id (fun y => { y with parked := true })).park c.die va (s'.asid c) kind (!x.load) (.engine (c.agent .ve) x.id)
  | none, .fault cause v s' => s'.failAccess c x cause v
  | none, .homes hs s' =>
    if x.load then
      match s'.eccHit (hs.map (fun h => h.2.1)) with
      | some bad => s'.failAccess c x 0x08 (x.eccVal hs bad)
      | none =>
        let r := s'.loadCells c x hs
        (r.1.store (r.2.map Prod.snd)).closeAccess c x.id
    else (s'.write (c.agent .ve) (x.near.zip (hs.map Prod.snd))).closeAccess c x.id

/-- ACCESS_COMPLETE (08 R188-R191): an access completes once no earlier access of its VE clashes with it, its window replies have come
and its posted pieces are acknowledged; one that has failed raises its fault. -/
def execAccessComplete (at_ : CtxId) (id : Nat) (s : State) : Res :=
  match (s.ve at_).pend.find? (fun x => x.id == id) with
  | none => .next s
  | some x =>
    let earlier := (s.ve at_).pend.takeWhile (fun y => y.id != id)
    let posted := (s.core at_.coreId).posted.any (fun p => p.access == some id && p.agent == at_.agent .ve)
    if !x.pieces.isEmpty then .next (s.pushVe at_)
    else if x.done || x.parked || earlier.any (fun y => !y.done && s.clash at_ y x) || posted || !x.want.isEmpty then .next s
    else .next (s.performAccess at_ x)

/-! ### Predicates and votes (08 R195-R198) -/

/-- A predicate operation, granule by granule under the guard. -/
def State.plog (s : State) (gd : Guard) (d a b : Nat) (f : BitVec 256 → BitVec 256 → BitVec 256) : Res :=
  s.engine (fun _ _ s =>
    .done 2 (s.modVe s.agent.ctx (fun v =>
      let g := v.guard gd
      v.setPred d ((v.pred d &&& ~~~g) ||| (f (v.pred a) (v.pred b) &&& g)).toNat)))

def execPand (gd : Guard) (d a b : Nat) (s : State) : Res := s.plog gd d a b (· &&& ·)
def execPor (gd : Guard) (d a b : Nat) (s : State) : Res := s.plog gd d a b (· ||| ·)
def execPxor (gd : Guard) (d a b : Nat) (s : State) : Res := s.plog gd d a b (· ^^^ ·)
def execPandn (gd : Guard) (d a b : Nat) (s : State) : Res := s.plog gd d a b (fun x y => x &&& ~~~y)

def execPset (d f l : Nat) (s : State) : Res :=
  s.engine (fun _ _ s =>
    .done 2 (s.modVe s.agent.ctx (fun v =>
      v.setPred d (bitsNat ((List.range 256).map (fun g => decide (f ≤ g) && decide (g ≤ l)))))))

/-- VANY and VALL: a vote enters the SCU's queue, or is one a replay discards (08 R197-R198). -/
def State.vote (s : State) (gd : Guard) (a t : Nat) (f : List Bool → Bool) : Res :=
  s.engine (fun _ _ s =>
    let c := s.agent.ctx
    let v := s.ve c
    let g := v.guard gd
    let w := intTy t
    let tests := ((List.range (lanes w)).filter (laneOn g w)).map (fun j => (v.pred a).getLsbD (j * w / 16))
    let k := s.ctx c
    if k.revote ≠ 0 then .done 2 (s.setCtx c { k with revote := k.revote - 1 })
    else if 8 ≤ k.votes.length then .wait .queueFull s
    else .done 2 (s.setCtx c { k with votes := k.votes ++ [f tests], voted := k.voted + 1 }))

def execVany (gd : Guard) (a t : Nat) (s : State) : Res := s.vote gd a t (fun l => l.any id)
def execVall (gd : Guard) (a t : Nat) (s : State) : Res := s.vote gd a t (fun l => l.all id)

/-! ### Pails and signals (08 R199-R201) -/

def execApail (k h sd n : Nat) (s : State) : Res :=
  s.engine (fun r _ s =>
    s.engPail (r.pailOf h) (fun key =>
      if pailCount (s.word (key + 3)) ≤ n then .trap 0x0A (zx (r.pailOf h)) s
      else .done 2 (s.modStream s.agent (fun y => { y with a := setNth y.a k (zx (2 ^ 63 + s.pailSlot key sd n)) }))))

def execPailw (h c : Nat) (s : State) : Res := s.engine (fun r _ s => s.engPailWait r 0 h c 2)
def execPailf (h c : Nat) (s : State) : Res := s.engine (fun r _ s => s.engPailWait r 1 h c 2)
def execPaila (h c sd : Nat) (s : State) : Res := s.engine (fun r _ s => s.engAdvance r sd h c 2)
def execVsig (e c : Nat) (s : State) : Res := s.engine (fun r _ s => s.engSignal r e c 2)
def execVwait (e c w : Nat) (s : State) : Res :=
  s.engine (fun r _ s => if w = 0 then s.engWait r e c 2 else s.engWdec r e c 2)

/-! ### Window and configuration (08 R202-R204) -/

def execVwin (t h : Nat) (s : State) : Res :=
  s.engine (fun _ _ s =>
    let c := s.agent.ctx
    if s.tileCount c ≤ t then .trap 0x06 (zx t) s
    else if s.owned c t then .wait .interlock s
    else .done 2 (s.modVe c (fun v => { v with tile := t, half := h })))

def execVcfg (sel i : Nat) (s : State) : Res :=
  s.engine (fun r _ s =>
    .done 2 (s.modVe s.agent.ctx (fun v =>
      match sel with
      | 0 => { v with cfg := { v.cfg with mode := fld i 0 3, ftz := i.testBit 3, en := fld i 4 5 } }
      | 1 => { v with cfg := { v.cfg with seed := v.cfg.seed / 2 ^ 16 * 2 ^ 16 + i % 2 ^ 16 } }
      | 2 => { v with cfg := { v.cfg with seed := i % 2 ^ 16 * 2 ^ 16 + v.cfg.seed % 2 ^ 16 } }.reseed r.acc
      | _ => { v with cfg := { v.cfg with flags := v.cfg.flags &&& (31 ^^^ (i % 32)) } })))

end Sys2Proof.Machine
end

