-- ==== Sys2Proof/Machine/Weights.lean ====
section
/-! DEFINITION. Weight images (09 R209), catalogue rows (09 R215-R216), and the arithmetic of a pass (02 R46-R48, 09 R222-R224). -/

namespace Sys2Proof.Machine

/-! ### Weight images (09 R209) -/

/-- The first header word of an image as its fields. -/
structure ImgHead where
  len : Nat
  zm : Bool
  sc : Bool
  kw : Bool
  bfmt : Nat

/-- The header fields of a word. -/
def imgHead (h : Nat) : ImgHead := ⟨fld h 16 16, h.testBit 7, h.testBit 6, h.testBit 5, fld h 0 4⟩

/-- K of an image. -/
def ImgHead.k (h : ImgHead) : Nat := if h.kw then 256 else 128
/-- The number of blocks, present or absent. -/
def ImgHead.blocks (h : ImgHead) : Nat := h.k * 4
/-- The length of the block map in bytes. -/
def ImgHead.mapLen (h : ImgHead) : Nat := if h.zm then (h.blocks / 8 + 63) / 64 * 64 else 0
/-- The length of one block of 32 elements. -/
def ImgHead.blockLen (h : ImgHead) : Nat := 4 * codeWidth h.bfmt
/-- The length of the scale array. -/
def ImgHead.scaleLen (h : ImgHead) : Nat := if h.sc then h.blocks else 0

/-- The blocks marked present in a map. -/
def ImgHead.present (h : ImgHead) (map : List Byte) : List Bool :=
  if h.zm then ((map.take (h.blocks / 8)).map (fun b => (List.range 8).map b.getLsbD)).flatten else List.replicate h.blocks true

/-- Whether a code is a B format. -/
def bFormat (f : Nat) : Bool := decide (3 ≤ f) && decide (f ≤ 8)
/-- Whether a code is one of the integer matrix formats. -/
def intFormat (f : Nat) : Bool := f == 6 || f == 7

/-- Whether an image is malformed, from its header's 64 bytes and its block map. -/
def imgMalformed (head map : List Byte) : Bool :=
  let w := leNat (head.take 4)
  let h := imgHead w
  let count := ((h.present map).filter id).length
  fld w 8 8 != 0 || w.testBit 4 || (head.drop 4).any (· != 0) || !bFormat h.bfmt || (h.kw && codeWidth h.bfmt == 8)
    || (h.sc && intFormat h.bfmt) || h.len != (64 + h.mapLen + count * h.blockLen + h.scaleLen + 63) / 64

/-- The payload index of each block, none where it is absent. -/
def payloadIndex : Nat → List Bool → List (Option Nat)
  | _, [] => []
  | n, true :: t => some n :: payloadIndex (n + 1) t
  | n, false :: t => none :: payloadIndex n t

/-- The 32 element encodings of a block, an N4X element being its byte. -/
def blockCodes (fmt : Nat) (bs : List Byte) : List Nat :=
  let v := leNat bs
  (List.range 32).map (fun j => if fmt = 8 then fld v (8 * (j / 2)) 8 else fld v (codeWidth fmt * j) (codeWidth fmt))

/-- One column of a plane: its K values, block scales included. The tests of R209 on the format do not hold of an image fetched again
after its bytes changed, so the plane's own format and width decide. -/
def planeColumn (image : List Byte) (fmt : Nat) (kw : Bool) (n : Nat) : List Val :=
  let h := { imgHead (leNat (image.take 4)) with kw := kw, bfmt := fmt }
  let pres := h.present (image.drop 64)
  let idx := payloadIndex 0 pres
  let payload := image.drop (64 + h.mapLen)
  let scales := payload.drop ((pres.filter id).length * h.blockLen)
  let bpc := h.k / 32
  ((rangeFrom (n * bpc) bpc).map (fun i =>
    let codes := match idx.getD i none with
      | some p => blockCodes fmt ((payload.drop (p * h.blockLen)).take h.blockLen)
      | none => List.replicate 32 0
    let scale := if h.sc then (scales.getD i 0).toNat else 0x7F
    ((List.range 32).zip codes).map (fun e => (decodeCode fmt e.2 e.1).scaled scale))).flatten

/-! ### Catalogue rows (09 R215-R216) -/

/-- A catalogue row as its fields. -/
structure CatRow where
  soff : Int
  sstr : Nat
  astr : Nat
  segs : Nat
  win : Bool
  asc : Bool
  bfmt : Nat
  afmt : Nat

/-- The fields of a row's image. -/
def catRow (r : BitVec 128) : CatRow :=
  let n := r.toNat
  ⟨signed 32 (fld n 64 32), fld n 32 16, fld n 16 16, fld n 11 2, n.testBit 9, n.testBit 8, fld n 4 4, fld n 0 4⟩

/-- Whether the accumulator type is FP32. -/
def CatRow.float (c : CatRow) : Bool := !intFormat c.afmt
/-- K of a pass. -/
def CatRow.k (c : CatRow) : Nat :=
  if (c.afmt == 5 || c.afmt == 7) && (c.bfmt == 5 || c.bfmt == 7 || c.bfmt == 8) then 256 else 128
/-- The bytes of an A row. -/
def CatRow.rowLen (c : CatRow) : Nat := c.k * codeWidth c.afmt / 8
/-- The window segments of an A row. -/
def CatRow.segCount (c : CatRow) : Nat := if c.win then 2 ^ c.segs else 1

/-- Whether MCAT takes a row image. -/
def catLegal (r : BitVec 128) : Bool :=
  let n := r.toNat
  let c := catRow r
  fld n 96 32 == 0 && fld n 48 16 == 0 && fld n 13 3 == 0 && !n.testBit 10
    && decide (1 ≤ c.afmt) && decide (c.afmt ≤ 7) && bFormat c.bfmt && intFormat c.afmt == intFormat c.bfmt
    && !(c.asc && (c.win || c.afmt == 1 || c.afmt == 2 || c.afmt == 6 || c.afmt == 7))
    && (if c.win then c.astr == 0 else c.segs == 0)

/-! ### A operands (09 R217) -/

/-- The S-space address of segment `g` of row `r` of an A operand. -/
def CatRow.segAddr (c : CatRow) (base : Nat) (st : Int × Int) (r g : Nat) : Nat :=
  (((base : Int) + (if c.win then (g : Int) * st.1 + (r : Int) * st.2 else (r * c.astr * 16 : Nat))) % 2 ^ 32).toNat
/-- The S-space address of the scale byte of row `r`, block `kb`. -/
def CatRow.scaleAddr (c : CatRow) (base r kb : Nat) : Nat := (((base : Int) + c.soff + (r * c.sstr + kb : Nat)) % 2 ^ 32).toNat

/-- Why one byte of S-space is no part of an A operand. -/
def aByte (a : Nat) : Option Nat :=
  match sLoc (a % 2 ^ 32) 1 with
  | .scratch => if inDocentArea (a % 2 ^ 32) 1 then some 0x06 else none
  | .hole => some 0x04
  | _ => some 0x06

/-- The check of `n` operand bytes: a hole anywhere decides the cause before any other refused byte (03 R54); TVAL is the range's address. -/
def aRange (a n : Nat) : Except (Nat × Word) Unit :=
  if sLoc a n == .scratch && !inDocentArea a n then .ok ()
  else
    let causes := (List.range n).filterMap (fun i => aByte (a + i))
    if causes.contains 0x04 then .error (0x04, zx a)
    else
      match causes.head? with
      | some cause => .error (cause, zx a)
      | none => .ok ()

/-- The check of an aligned row, segment or catalogue image. -/
def aSpan (a n : Nat) : Except (Nat × Word) Unit := if a % 16 ≠ 0 then .error (0x03, zx a) else aRange a n

/-- The first failure of a list of checks. -/
def firstError {α : Type} : List (Except α Unit) → Except α Unit
  | [] => .ok ()
  | .ok _ :: t => firstError t
  | .error e :: _ => .error e

/-- The checks of an A operand of `m` rows, row by row, segments before scales. -/
def CatRow.check (c : CatRow) (base : Nat) (st : Int × Int) (m : Nat) : Except (Nat × Word) Unit :=
  firstError ((List.range m).map (fun r =>
    firstError ((List.range c.segCount).map (fun g => aSpan (c.segAddr base st r g) (c.rowLen / c.segCount))
      ++ (if c.asc then (List.range (c.k / 32)).map (fun kb => aRange (c.scaleAddr base r kb) 1) else []))))

/-- The values of an A row, scales included. -/
def CatRow.values (c : CatRow) (row scales : List Byte) : List Val :=
  let v := leNat row
  let w := codeWidth c.afmt
  (List.range c.k).map (fun k =>
    (decodeCode c.afmt (fld v (w * k) w) k).scaled (if c.asc then (scales.getD (k / 32) 0).toNat else 0x7F))

/-! ### One output element (09 R222, R224) -/

/-- The integer a value of an integer format is. -/
def Val.int : Val → Int
  | .fin m e => shiftInt m e.toNat
  | _ => 0

/-- The new accumulator word of one element from its old word, an A row and a B column of the same length. -/
def CatRow.element (c : CatRow) (old : Nat) (a b : List Val) : Nat :=
  if c.float then accumulate (fp32.decode old) (List.zipWith Val.mul a b)
  else accumulateInt (signed 32 old) (List.zipWith (fun x y => x.int * y.int) a b)

/-- The part of a row or column that an element of column `n` uses: all of it, or its block in MMAB. -/
def passPart (block : Bool) (k n : Nat) (l : List Val) : List Val := if block then (l.drop (n / 8 * (k / 16))).take (k / 16) else l

/-- The 512 bytes of an accumulator row after a pass. -/
def CatRow.outRow (c : CatRow) (block : Bool) (old : List Byte) (a : List Val) (cols : List (List Val)) : List Byte :=
  let v := leNat old
  (((List.range 128).zip cols).map (fun e =>
    natLe 4 (c.element (fld v (32 * e.1) 32) (passPart block c.k e.1 a) (passPart block c.k e.1 e.2)))).flatten

end Sys2Proof.Machine
end

