-- ==== Sys2Proof/Machine/Me.lean ====
section
/-! DEFINITION. The instructions of the matrix engine (09 R207-R233): weight images in the cellar, planes, the catalogue, tiles and the
issue of passes with their places in the churn. -/

namespace Sys2Proof.Machine

/-! ### The cellar (09 R210) -/

/-- The tags a slot's names and planes refer to, one name left out. -/
def MeSlot.tags (m : MeSlot) (without : Option Nat) : List Nat :=
  ((m.names.filter (fun n => some n.name != without)).map (fun n => n.tag))
    ++ ([m.plane0, m.plane1].filterMap id).map (fun b => b.plane.tag)

/-- The slots that pin a tag: by a name, a plane binding or a churn member. -/
def State.pinners (s : State) (c : CoreId) (slot : Nat) (without : Option Nat) (tag : Nat) : List Nat :=
  (List.range 4).filter (fun x =>
    ((s.me (c.ctx x)).tags (if x = slot then without else none)).contains tag
      || (s.core c).passes.any (fun p => p.slot == x && p.member && p.plane.tag == tag))

/-- Whether an expansion of a tag's entry is in progress. -/
def Core.expanding (k : Core) (tag : Nat) : Bool :=
  [k.phys0, k.phys1].any (fun p => match p with | some q => !q.done && q.plane.tag == tag | none => false)

/-- The entry of a tag. -/
def Core.entry (k : Core) (tag : Nat) : Option CellarEntry := k.cellar.find? (fun e => e.tag == tag)

/-- The lines entries take; a failed entry is invalid and takes none. -/
def cellarLines (l : List CellarEntry) : Nat := ((l.filter (fun e => !e.failed)).map (fun e => e.lines)).foldl (· + ·) 0

/-- Whether the cellar has room for another entry of some lines. -/
def cellarFits (l : List CellarEntry) (lines : Nat) : Bool :=
  decide (cellarLines l + lines ≤ 1024) && decide ((l.filter (fun e => !e.failed)).length < 8)

/-- Evicts entries that are not pinned, least recently used first, until there is room; `fuel` bounds the evictions. -/
def evict (pinned : CellarEntry → Bool) (lines : Nat) : Nat → List CellarEntry → List CellarEntry
  | 0, l => l
  | n + 1, l =>
    if cellarFits l lines then l
    else
      match l.filter (fun e => !e.failed && !pinned e) with
      | [] => l
      | e :: t =>
        let oldest := t.foldl (fun a b => if b.used < a.used then b else a) e
        evict pinned lines n (l.filter (fun x => x.tag != oldest.tag))

/-- Enters an entry whose image is to be fetched, after evicting what it must; none while there is no room. -/
def State.cellarEnter (s : State) (c : CoreId) (e : CellarEntry) : Option State :=
  let k := s.core c
  let pinned (x : CellarEntry) : Bool := !(s.pinners c 4 none x.tag).isEmpty || k.expanding x.tag
  let l := evict pinned e.lines 8 (k.cellar.filter (fun x => x.tag != e.tag))
  if cellarFits l e.lines then some (s.modCore c (fun k => { k with cellar := l ++ [e] })) else none

/-- The bytes of a range of a VA access with its address for an uncorrectable word: the index of its first byte in the range. -/
def eccIndex (as : List Nat) (bad : Nat) : Nat := as.idxOf bad

/-- MCEL once its header and block map are read (09 R211). -/
def State.bindName (s : State) (name pa va word : Nat) : EngOut :=
  let a := s.agent
  let c := a.coreId
  let drop (m : MeSlot) : MeSlot := { m with names := m.names.filter (fun n => n.name != name) }
  let bound (s : State) : State := s.modMe a.ctx (fun m => { drop m with names := (drop m).names ++ [⟨name, pa, false⟩] })
  let h := imgHead word
  match ((s.core c).cellar.find? (fun e => e.tag == pa && !e.failed)) with
  | some _ =>
    .done 1 (bound (s.modCore c (fun k =>
      { k with cellar := k.cellar.map (fun e => if e.tag = pa then { e with used := s.cycle } else e) })))
  | none =>
    let waits := (s.stream a).wait == .counter 0
    let own := (s.core c).cellar.filter (fun e => !e.failed && s.pinners c a.slot (some name) e.tag == [a.slot])
    if !waits && (decide (1024 < cellarLines own + h.len) || decide (8 ≤ own.length)) then .trap 0x06 (zx name) s
    else
      let s := s.modMe a.ctx drop
      match s.cellarEnter c ⟨pa, s.asid a.ctx, some va, word, h.len, none, false, false, s.cycle, a.slot⟩ with
      | none => .wait (.counter 0) s
      | some s' => .done 1 (bound s')

/-- MCEL (09 R211). The block map is read before the image is judged, so that a map that cannot be read comes before a malformed header, and one that leaves
VA space reports 2^56: the model's choices (log entry 114). -/
def execMcel (gd : Guard) (n k : Nat) (s : State) : Res :=
  s.guarded gd (fun _ x s =>
    let a := s.agent
    let v := x.a.getD k 0
    if wfld v 56 8 ≠ 0 then .trap 0x05 v s
    else if v.toNat % 64 ≠ 0 then .trap 0x03 v s
    else
      match s.mapVA a.coreId .me (s.asid a.ctx) v.toNat 64 true false with
      | .fault cause va s' => .trap cause (zx va) s'
      | .absent va kind s' => .wait .parked (s'.park a.die va (s'.asid a.ctx) kind false (.engine a 0))
      | .busy s' => .wait .none s'
      | .ok as s' =>
        let pa := as.headD 0 - vatAt a.die 0
        match s'.eccHit as with
        | some bad => .trap 0x08 (zx (v.toNat + eccIndex as bad)) s'
        | none =>
          let head := s'.glance a 0 as
          let h := imgHead (leNat (head.take 4))
          if 0 < h.mapLen ∧ 2 ^ 56 < v.toNat + 64 + h.mapLen then .trap 0x05 (zx (2 ^ 56)) s'
          else
          match s'.mapVA a.coreId .me (s'.asid a.ctx) (v.toNat + 64) h.mapLen true false with
          | .fault cause va s' => .trap cause (zx va) s'
          | .absent va kind s' => .wait .parked (s'.park a.die va (s'.asid a.ctx) kind false (.engine a 0))
          | .busy s' => .wait .none s'
          | .ok ms s' =>
            match s'.eccHit ms with
            | some bad => .trap 0x08 (zx (v.toNat + 64 + eccIndex ms bad)) s'
            | none =>
              if imgMalformed head (s'.glance a 64 ms) then .trap 0x01 (zx (encodeWord (.mcel gd n k))) s'
              else s'.bindName n pa v.toNat (leNat (head.take 4)))

/-! ### Planes (09 R212-R214) -/

/-- Whether a pass that is ready or running needs a triple. -/
def Core.needed (k : Core) (p : Plane) : Bool := k.passes.any (fun q => q.ready && !q.failed && !q.withdrawn && q.plane == p)

/-- Whether a physical plane may take another image. -/
def Core.canTake (k : Core) : Option Phys → Bool
  | none => true
  | some q => q.done && !k.needed q.plane

/-- Whether a physical plane holds a triple, expanded or being expanded. -/
def Core.holdsPlane (k : Core) (p : Plane) : Bool :=
  [k.phys0, k.phys1].any (fun q => match q with | some x => x.plane == p | none => false)

/-- Starts the expansion of a triple unless a physical plane holds it or none may take it. -/
def State.expand (s : State) (c : CoreId) (p : Plane) : State :=
  let k := s.core c
  if k.holdsPlane p then s
  else if k.phys0.isNone || (k.canTake k.phys0 && !(k.phys1.isNone)) then s.modCore c (fun k => { k with phys0 := some ⟨p, [], false⟩ })
  else if k.canTake k.phys1 then s.modCore c (fun k => { k with phys1 := some ⟨p, [], false⟩ })
  else s

/-- The logical plane of a number. -/
def MeSlot.plane (m : MeSlot) (i : Nat) : Option Bound := if i = 0 then m.plane0 else m.plane1

/-- The first header word of a tag's entry; an entry that is gone is read again from its tag (09 R231). -/
def State.tagHeader (s : State) (c : CoreId) (tag : Nat) : Nat :=
  match (s.core c).entry tag with
  | some e => e.header
  | none => s.rdNat (vatAt c.die tag) 4

/-- Whether a tag's entry has failed: its next use traps with cause 0x0F (09 R211). -/
def State.tagFailed (s : State) (c : CoreId) (tag : Nat) : Bool :=
  match (s.core c).entry tag with
  | some e => e.failed
  | none => false

def execMldw (gd : Guard) (n : Nat) (s : State) : Res :=
  s.guarded gd (fun _ _ s =>
    let a := s.agent
    let m := s.me a.ctx
    match m.names.find? (fun x => x.name == n) with
    | none => .trap 0x06 (zx n) s
    | some x =>
      if x.stale then .trap 0x06 (zx x.tag) s
      else if s.tagFailed a.coreId x.tag then .trap 0x0F (zx x.tag) s
      else
        let h := imgHead (s.tagHeader a.coreId x.tag)
        let p : Plane := ⟨x.tag, h.bfmt, h.kw⟩
        let s := s.modCore a.coreId (fun k =>
          { k with cellar := k.cellar.map (fun e => if e.tag = x.tag then { e with used := s.cycle } else e) })
        let s := s.modMe a.ctx (fun m => if m.active = 0 then { m with plane1 := some ⟨p, false⟩ } else { m with plane0 := some ⟨p, false⟩ })
        .done 1 (s.expand a.coreId p))

def execMpln (gd : Guard) (p : Nat) (s : State) : Res :=
  s.guarded gd (fun _ _ s =>
    .done 1 (s.modMe s.agent.ctx (fun m => { m with active := if p = 2 then 1 - m.active else p })))

/-! ### The catalogue (09 R216) -/

/-- Rows written. -/
def MeSlot.row (m : MeSlot) (i : Nat) : Option (BitVec 128) := (m.cat.find? (fun e => e.1 == i)).map Prod.snd

def execMcat (gd : Guard) (row k : Nat) (s : State) : Res :=
  s.guarded gd (fun _ x s =>
    let c := s.agent.ctx
    let a := wfld (x.a.getD k 0) 0 32
    match aSpan a 16 with
    | .error e => .trap e.1 e.2 s
    | .ok _ =>
      let as := s.sAddrs c a 16
      match s.eccHit as with
      | some bad => .trap 0x08 (zx (a + eccIndex as bad)) s
      | none =>
        let r := BitVec.ofNat 128 (leNat (s.glance s.agent 0 as))
        if !catLegal r then .trap 0x01 (zx (encodeWord (.mcat gd row k))) s
        else
          let m := s.me c
          let changes := match m.row row with
            | some old => (catRow old).float != (catRow r).float
            | none => false
          let held := m.owned.any (fun o => match o.2 with | some t => t.1 == row | none => false)
          if changes && held then .wait .interlock s
          else .done 1 (s.modMe c (fun m => { m with cat := Table.put m.cat row r })))

/-! ### Tiles (09 R218-R220, 03 R58) -/

/-- Whether VE accesses issued to a committed tile are outstanding, which its first MZRO or MMA waits for (03 R58). -/
def Ve.touches (v : Ve) (t : Nat) : Bool :=
  v.pend.any (fun x => !x.done && (x.tile == t || (List.range 128).any (x.aliasRow t)))

/-- Whether a pass into a tile of a slot is outstanding. -/
def State.passing (s : State) (c : CtxId) (t : Nat) : Bool := (s.core c.coreId).passes.any (fun p => p.slot == c.ctx && p.tile == t)

/-- Whether the first MZRO or MMA of a tile has to wait. -/
def State.tileBusy (s : State) (c : CtxId) (t : Nat) : Bool := s.exchanging c t || (!s.owned c t && (s.ve c).touches t)

/-- Makes a tile ME-owned with a captured row and type, or with the type open. -/
def MeSlot.own (m : MeSlot) (t : Nat) (ty : Option (Nat × Bool)) : MeSlot :=
  { m with owned := m.owned.filter (fun o => o.1 != t) ++ [(t, ty)] }

def execMzro (gd : Guard) (t : Nat) (s : State) : Res :=
  s.guarded gd (fun _ _ s =>
    let c := s.agent.ctx
    if s.tileCount c ≤ t then .trap 0x06 (zx t) s
    else if s.tileBusy c t || s.passing c t then .wait .interlock s
    else .done 1 ((s.zeroTile c t).modMe c (fun m => m.own t none)))

/-- Whether a range of local S-space touches a tile's alias. -/
def onTile (isS : Bool) (a n t : Nat) : Bool :=
  isS && decide (a < 0x10000000 + (t + 1) * 65536) && decide (0x10000000 + t * 65536 < a + n)

/-- Whether a position holds a tile that is ME-owned or has an access of its task outstanding (17 R385). -/
def State.posBusy (s : State) (k : CoreId) (pos : Nat) : Bool :=
  (CoreId.slots k).any (fun c =>
    (List.range (s.tileCount c)).any (fun t =>
      s.tilePos c t == pos &&
        (s.owned c t || (s.ve c).touches t
          || (s.ctx c).copies.any (fun y => onTile y.dstS y.dst y.n t || onTile y.srcS y.src y.n t)
          || [AgentKind.ce, .xe].any (fun e =>
              (s.stream (c.agent e)).transfers.any (fun y => onTile y.dstS y.dst y.n t || onTile y.srcS y.src y.n t))
          || (s.stream (c.agent .xe)).xcads.any (fun q => onTile true q.old q.size t))))

/-- A reading of a core's difference sensor, which is measured and so free (17 R385): 0 neither half is hotter, or the sensor has a parity
fault; 1 the east, 2 the west. -/
def State.readDifference (s : State) (c : CoreId) : State :=
  let h := if Config.freeBit s.freeCtr then (if Config.freeBit (s.freeCtr + 1) then 1 else 2) else 0
  { s.modCore c (fun k => { k with hotter := h }) with freeCtr := s.freeCtr + 2 }

/-- Starts the exchange of a committed tile in the hotter half with a partner in the cooler one, when there is one (17 R385): positions
0 to 7 are the east half, and a position that is being exchanged is no partner (log entry 16). -/
def State.alternate (s : State) (c : CtxId) (t : Nat) : State :=
  let s := s.readDifference c.coreId
  let k := s.core c.coreId
  let pos := s.tilePos c t
  if k.hotter = 0 ∨ (k.hotter = 1) ≠ (pos < 8) then s
  else
    match (rangeFrom (if pos < 8 then 8 else 0) 8).find? (fun p =>
      !s.posBusy c.coreId p && !k.exchanges.any (fun x => p == x.1 || p == x.2)) with
    | none => s
    | some p => s.modCore c.coreId (fun k => { k with exchanges := k.exchanges ++ [(pos, p)] })

/-- MRET (09 R219): it commits the tile, which is a release (04 R84). -/
def execMret (gd : Guard) (t : Nat) (s : State) : Res :=
  s.guarded gd (fun r _ s =>
    let c := s.agent.ctx
    if s.tileCount c ≤ t then .trap 0x06 (zx t) s
    else if !s.owned c t then .done 1 s
    else if s.passing c t then .wait .interlock s
    else
      let s := s.modMe c (fun m =>
        let l := m.owned.filter (fun o => o.1 != t)
        { m with owned := l, depth := if l.isEmpty then 0 else m.depth })
      let s := if r.bbv then s.modStream s.agent (fun x => { x with counted := x.counted + 65536 }) else s
      .done 1 ((s.publish s.agent (fun _ => false) (.tile c t)).alternate c t))

/-! ### The issue of a pass (09 R222, R224, R226-R227) -/

/-- The rows a member takes in its stack. -/
def roundRows (m : Nat) : Nat := (m + 7) / 8 * 8
/-- A member's rounded rows. -/
def Pass.rounded (p : Pass) : Nat := roundRows p.rows
/-- Whether a pass stands in an open stack. -/
def Pass.open_ (p : Pass) : Bool := p.member && !p.ready && !p.withdrawn && !p.failed
/-- Whether two passes have one key (09 R226). -/
def Pass.sameKey (p q : Pass) : Bool := p.plane == q.plane && p.row.toNat % 512 == q.row.toNat % 512 && p.part == q.part

/-- Makes an open stack ready, at an ME cycle. -/
def readyStack (now stack : Nat) (l : List Pass) : List Pass :=
  l.map (fun p => if p.stack = stack ∧ p.open_ then { p with ready := true, readyAt := now } else p)

/-- The members of an open stack. -/
def openMembers (stack : Nat) (l : List Pass) : List Pass := l.filter (fun p => p.stack == stack && p.open_)

/-- The rounded rows of some members. -/
def roundedRows (l : List Pass) : Nat := (l.map Pass.rounded).foldl (· + ·) 0

/-- Makes a stack ready if one of the tests of R227 holds of it now, in the cycle of its earliest deadline if that has come. -/
def settleStack (now stack : Nat) (l : List Pass) : List Pass :=
  let ms := openMembers stack l
  if ms.any (fun p => decide (p.deadline ≤ now)) then readyStack (ms.foldl (fun m p => min m p.deadline) now) stack l
  else if decide (128 ≤ roundedRows ms) || ms.any (fun p => p.cls == 3) then readyStack now stack l
  else l

/-- Makes every stack ready whose deadline has come. -/
def settleAll (now : Nat) (l : List Pass) : List Pass :=
  (((l.filter Pass.open_).map (fun p => p.stack)).eraseDups).foldl (fun l k => settleStack now k l) l

/-- Enters a member into the churn (09 R227): it joins the open stack of its key, or opens a new one, the old one becoming ready. -/
def churnEnter (now : Nat) (l : List Pass) (p : Pass) : List Pass :=
  let l := settleAll now l
  match l.find? (fun q => q.open_ && q.sameKey p) with
  | none => settleStack now p.id (l ++ [{ p with stack := p.id }])
  | some q =>
    if roundedRows (openMembers q.stack l) + p.rounded ≤ 128 then settleStack now q.stack (l ++ [{ p with stack := q.stack }])
    else settleStack now p.id (readyStack now q.stack l ++ [{ p with stack := p.id }])

/-- Issues an MMA (`block` false) or MMAB (09 R222, R224). `w` is the instruction's word. -/
def State.issuePass (s : State) (gd : Guard) (block merge : Bool) (t k rows base w : Nat) : Res :=
  s.guarded gd (fun r x s =>
    let a := s.agent
    let c := a.ctx
    let me := s.me c
    let kc := s.core a.coreId
    let rn := passRow r x.idx
    if s.tileCount c ≤ t then .trap 0x06 (zx t) s
    else
      match me.row rn, me.plane me.active with
      | none, _ => .trap 0x06 (zx rn) s
      | some _, none => .trap 0x06 (zx me.active) s
      | some row, some b =>
        let cat := catRow row
        let m := rows + 1
        let x0 := wfld (x.a.getD k 0) 0 32
        let st := (r.stride.getD (6 * k) 0, r.stride.getD (6 * k + 1) 0)
        let own := me.owned.find? (fun o => o.1 == t)
        let ty := match own with | some (_, some y) => some y | _ => none
        let depth := match s.task c with | some u => u.depth | none => 0
        if b.stale then .trap 0x06 (zx b.plane.tag) s
        else if s.tagFailed a.coreId b.plane.tag then .trap 0x0F (zx b.plane.tag) s
        else if b.plane.bfmt ≠ cat.bfmt ∨ b.plane.kw ≠ (cat.k == 256) then .trap 0x01 (zx w) s
        else if (match ty with | some y => y.2 != cat.float | none => false) then .trap 0x01 (zx w) s
        else if cat.win ∧ 4 ≤ k then .trap 0x01 (zx w) s
        else
          match cat.check x0 st m with
          | .error e => .trap e.1 e.2 s
          | .ok _ =>
            if depth < me.depth + 1 then .trap 0x06 (zx depth) s
            else if s.tileBusy c t then .wait .interlock s
            else
              let task := s.task c
              let cls := match task with | some u => u.cls | none => 0
              let wants := merge && decide (m ≤ 64) && !s.duty.testBit 1
              let full := decide (16 ≤ (kc.passes.filter (fun p => p.member)).length)
              if wants ∧ full ∧ cls ≠ 3 then .wait (.counter 0) s
              else
                let member := wants && !full
                let now := s.unitCycles a.coreId 2
                let p : Pass := ⟨s.nextId, a.slot, t, x0, st, m, base * 8, row, b.plane, block, member,
                  (match task with | some u => u.part | none => 0), cls, now + kc.mbhold.getD cls 0, s.nextId, !member, now, false, [],
                  false, false, x.epc⟩
                let s := s.named.modMe c (fun me =>
                  { me.own t (some (match ty with | some y => y | none => (rn, cat.float))) with depth := me.depth + 1 })
                .done 0 (s.modCore a.coreId (fun k =>
                  { k with passes := if member then churnEnter now k.passes p else k.passes ++ [p] })))

def execMma (gd : Guard) (t k r b m : Nat) (s : State) : Res := s.issuePass gd false (m == 1) t k r b (encodeWord (.mma gd t k r b m))
def execMmab (gd : Guard) (t k r b : Nat) (s : State) : Res := s.issuePass gd true false t k r b (encodeWord (.mmab gd t k r b))

end Sys2Proof.Machine
end

