-- ==== Sys2Proof/Machine/MeArray.lean ====
section
/-! DEFINITION. What the matrix engine does on its own: fetching images, expanding planes, running passes, and exchanging accumulator
positions (09 R210-R230, 17 R385). -/

namespace Sys2Proof.Machine

/-- The matrix engine of a core, as the agent its watchdog counts for. -/
def meAgent (c : CoreId) : AgentId := ⟨c.die, c.core, 0, .me⟩

/-- The model's place of byte `off` of the cellar copy of a tag, for uncorrectable errors in the cellar. -/
def cellarAt (c : CoreId) (tag off : Nat) : Nat := 2 ^ 57 + (c.die * 64 + c.core) * 2 ^ 40 + tag + off

/-- The model's place of byte `off` of the image in a physical plane, for uncorrectable errors in the plane. -/
def planeAt (c : CoreId) (i off : Nat) : Nat := 2 ^ 58 + ((c.die * 64 + c.core) * 2 + i) * 65536 + off

/-- Changes a cellar entry. -/
def State.modEntry (s : State) (c : CoreId) (tag : Nat) (f : CellarEntry → CellarEntry) : State :=
  s.modCore c (fun k => { k with cellar := k.cellar.map (fun e => if e.tag = tag then f e else e) })

/-! ### Failing operands (09 R211, R230) -/

/-- Fails some passes, each task with a cause and value; the condition report lists them so, and then they leave the churn (09 R230, 12
R267). -/
def State.failPasses (s : State) (c : CoreId) (hit : Pass → Bool) (cause : Nat) (v : Word) : State :=
  let ids := ((s.core c).passes.filter hit).map (fun p => p.id)
  let slots := (((s.core c).passes.filter hit).map (fun p => p.slot)).eraseDups
  let s := s.modCore c (fun k => { k with passes := k.passes.map (fun p => if hit p then { p with failed := true } else p) })
  let s := slots.foldl (fun s x => s.trap (c.ctx x) 2 cause v) s
  s.modCore c (fun k => { k with passes := k.passes.filter (fun p => !ids.contains p.id) })

/-- Invalidates an entry with the planes expanded from it, and fails every pass that still needs it and those given, each task with cause
0x0F. -/
def State.failEntry (s : State) (c : CoreId) (tag : Nat) (also : Pass → Bool) : State :=
  let s := s.modEntry c tag (fun e => { e with failed := true, image := none })
  let keep (q : Option Phys) : Option Phys := q.filter (fun x => x.plane.tag != tag)
  let s := s.modCore c (fun k => { k with phys0 := keep k.phys0, phys1 := keep k.phys1 })
  s.failPasses c (fun p => p.plane.tag == tag && !p.failed && p.ready && !p.withdrawn && (p.image.isEmpty || also p)) 0x0F (zx tag)

/-- CELLAR_FETCH_COMPLETE (09 R211): the whole image has been read; a page that is absent parks the fetch, one that denies it or an
uncorrectable word fails the entry. -/
def execCellarFetchComplete (c : CoreId) (tag : Nat) (s : State) : Res :=
  match (s.core c).entry tag with
  | none => .next s
  | some e =>
    if e.image.isSome || e.failed || e.parked then .next s
    else
      let n := e.lines * 64
      let r := match e.va with
        | some va => if 2 ^ 56 < va + n then MapRes.fault 0x05 (2 ^ 56) s else s.mapVA c .me e.asid va n true false
        | none => if s.rowBusy c.die tag n then .busy s else .ok (rangeFrom (vatAt c.die tag) n) s
      match r with
      | .fault _ _ s' => .next (s'.failEntry c tag (fun _ => false))
      | .busy s' => .next s'
      | .absent va kind s' => .next ((s'.modEntry c tag (fun e => { e with parked := true })).park c.die va e.asid kind false (.cellar c tag e.slot))
      | .ok as s' =>
        if (s'.eccHit as).isSome then .next (s'.failEntry c tag (fun _ => false))
        else
          let s' := (s'.clearRange (cellarAt c tag 0) n).modEntry c tag (fun e => { e with image := some (s'.glance ⟨c.die, c.core, e.slot, .me⟩ 0 as) })
          .next (s'.progress (meAgent c))

/-- PLANE_EXPANSION_COMPLETE (09 R212): the entry of the plane being expanded is there, or has failed, or is fetched again from its
tag. -/
def execPlaneExpansionComplete (c : CoreId) (i : Nat) (s : State) : Res :=
  let k := s.core c
  let set (s : State) (q : Option Phys) : State := s.modCore c (fun k => if i = 0 then { k with phys0 := q } else { k with phys1 := q })
  match (if i = 0 then k.phys0 else k.phys1) with
  | none => .next s
  | some q =>
    if q.done then .next s
    else
      let tag := q.plane.tag
      match k.entry tag with
      | none =>
        let w := s.rdNat (vatAt c.die tag) 4
        match s.cellarEnter c ⟨tag, 0, none, w, (imgHead w).len, none, false, false, s.cycle, (s.pinners c 4 none tag).headD 0⟩ with
        | some s' => .next s'
        | none => .next s
      | some e =>
        if e.failed then .next (s.failEntry c tag (fun _ => false))
        else
          match e.image with
          | none => .next s
          | some bs =>
            if (s.eccHit (rangeFrom (cellarAt c tag 0) bs.length)).isSome then .next (s.failEntry c tag (fun _ => false))
            else .next (set (s.clearRange (planeAt c i 0) 65536) (some { q with image := bs, done := true }))

/-- CHURN_DEADLINE (09 R227): a stack whose earliest deadline is reached becomes ready. -/
def execChurnDeadline (c : CoreId) (id : Nat) (s : State) : Res :=
  .next (s.modCore c (fun k => { k with passes := settleStack (s.unitCycles c 2) id k.passes }))

/-! ### The array (09 R228) -/

/-- The members of a ready pass that have not run. -/
def Core.waiting (k : Core) (stack : Nat) : List Pass :=
  k.passes.filter (fun p => p.stack == stack && p.ready && !p.withdrawn && !p.failed && p.image.isEmpty)

/-- The class of a ready pass: the highest of its members. -/
def Core.passClass (k : Core) (p : Pass) : Nat := ((k.waiting p.stack).map (fun q => q.cls)).foldl max p.cls

/-- Whether a ready pass goes before another: class, then readiness, then issue. -/
def Core.before (k : Core) (p q : Pass) : Bool :=
  decide (k.passClass q < k.passClass p)
    || (k.passClass p == k.passClass q && (decide (p.readyAt < q.readyAt) || (p.readyAt == q.readyAt && decide (p.id < q.id))))

/-- The first of some ready passes. -/
def Core.firstPass (k : Core) : List Pass → Option Pass
  | [] => none
  | p :: t =>
    match k.firstPass t with
    | none => some p
    | some q => if k.before q p then some q else some p

/-- The complete expansion of a triple. -/
def Core.expanded (k : Core) (p : Plane) : Option Phys :=
  ([k.phys0, k.phys1].filterMap id).find? (fun q => q.done && q.plane == p)

/-- The cost of a pass on the array (17 R379). -/
def Core.passCost (k : Core) (p : Pass) : Nat :=
  let rows := if p.member then roundedRows (k.waiting p.stack) else p.rows
  let c := catRow p.row
  rows * (if c.afmt = 1 ∨ c.afmt = 2 then 16 else if c.k = 256 then 10 else 8)

/-- The ME cycles of its own in which a pass occupies the array: one per row, two where A is BF16 or FP16 (09 R228). -/
def Core.passCycles (k : Core) (p : Pass) : Nat :=
  let rows := if p.member then roundedRows (k.waiting p.stack) else p.rows
  let a := (catRow p.row).afmt
  rows * (if a = 1 ∨ a = 2 then 2 else 1)

/-- Whether a physical plane is kept until some ready pass has run: one that is being expanded, or that only a running pass needs, comes free
without that. -/
def Core.stuck (k : Core) : Option Phys → Bool
  | none => false
  | some q => q.done && k.passes.any (fun p => p.ready && !p.failed && !p.withdrawn && p.image.isEmpty && p.plane == q.plane)

/-- The ready passes that may take the array next: all of them, for a pass that waits for a plane waits in its place; but where ready passes keep
both planes those whose plane is held, since the first of all could then never get its own (log entry 80). -/
def Core.candidates (k : Core) : List Pass :=
  let ready := k.passes.filter (fun p => p.ready && !p.withdrawn && !p.failed && p.image.isEmpty)
  match k.passHeld.bind (fun x => ready.find? (fun p => p.stack == x)) with
  | some p => [p]
  | none => if k.stuck k.phys0 && k.stuck k.phys1 then ready.filter (fun p => k.holdsPlane p.plane) else ready

/-- Whether the ME's bucket holds an instruction of a slot that has no member in a pass (17 R380). -/
def Core.heldForSlot (k : Core) (p : Pass) : Bool :=
  k.bucketHeld.any (fun h => h.1 == 2 && !((k.waiting p.stack).any (fun q => q.slot == h.2)))

/-- ARRAY_PASS (09 R212, R228): while the array is free the first pass of all takes it, once its plane is expanded and in a cycle that the
ladder leaves it (17 R376). A pass that its bucket holds stays the first (17 R380). -/
def execArrayPass (c : CoreId) (s : State) : Res :=
  let k := s.core c
  if 0 < k.arrayLeft then .next s
  else
    match k.firstPass k.candidates with
    | none => .next s
    | some p =>
      match k.expanded p.plane with
      | none => .next (s.expand c p.plane)
      | some q =>
        if !s.meDuty c ∨ k.heldForSlot p then .next s
        else if !s.affords c 2 (k.passCost p) then .next (s.modCore c (fun k => { k with passHeld := some p.stack }))
        else
          let s' := s.charge c 2 (k.passCost p)
          .next (s'.modCore c (fun k => { k with passHeld := none, arrayLeft := k.passCycles p, passes := k.passes.map (fun x =>
            if x.stack = p.stack ∧ x.ready ∧ !x.withdrawn ∧ !x.failed ∧ x.image.isEmpty then { x with running := true, image := q.image } else x) }))

/-- The global addresses of the bytes of A row `r` of a pass. -/
def State.aRow (s : State) (c : CtxId) (p : Pass) (r : Nat) : List Nat :=
  let cat := catRow p.row
  ((List.range cat.segCount).map (fun g => s.sAddrs c (cat.segAddr p.abase p.strides r g) (cat.rowLen / cat.segCount))).flatten

/-- The global addresses of the scale bytes of A row `r` of a pass. -/
def State.aScales (s : State) (c : CtxId) (p : Pass) (r : Nat) : List Nat :=
  let cat := catRow p.row
  if cat.asc then ((List.range (cat.k / 32)).map (fun kb => s.sAddrs c (cat.scaleAddr p.abase r kb) 1)).flatten else []

/-- The S-space address of a scratchpad or tile byte that a pass reads, from its global address. -/
def State.unplace (s : State) (c : CtxId) (p : Pass) (bad : Nat) : Nat :=
  if scratchAt c.die 0 ≤ bad ∧ bad < scratchAt c.die 0x08000000 then bad - scratchAt c.die 0
  else 0x10000000 + p.tile * 65536 + (bad - tileAt c.coreId (s.tilePos c p.tile) 0)

/-- The state after a pass has written its rows. -/
def State.runPass (s : State) (c : CtxId) (p : Pass) : State :=
  let cat := catRow p.row
  let cols := (List.range 128).map (planeColumn p.image p.plane.bfmt p.plane.kw)
  let row (r : Nat) : Nat := tileAt c.coreId (s.tilePos c p.tile) ((p.base + r) * 512)
  let out := (List.range p.rows).map (fun r =>
    let as := s.aRow c p r
    let ss := s.aScales c p r
    let before := r * (as.length + ss.length)
    (row r, cat.outRow p.block (s.rdN (row r) 512)
      (cat.values (s.glance (c.agent .me) before as) (s.glance (c.agent .me) (before + as.length) ss)) cols))
  out.foldl (fun s e => s.storeAt e.1 e.2) s

/-- The physical plane that holds a triple and an uncorrectable word (09 R230). -/
def State.planeBad (s : State) (c : CoreId) (p : Plane) : Bool :=
  let k := s.core c
  [(0, k.phys0), (1, k.phys1)].any (fun e =>
    match e.2 with
    | some q => q.plane == p && s.ecc.any (fun a => decide (planeAt c e.1 0 ≤ a) && decide (a < planeAt c e.1 q.image.length))
    | none => false)

/-- Whether the cellar entry of a tag holds an uncorrectable word (09 R230). -/
def State.entryBad (s : State) (c : CoreId) (tag : Nat) : Bool :=
  match (s.core c).entry tag with
  | some e => s.ecc.any (fun a => decide (cellarAt c tag 0 ≤ a) && decide (a < cellarAt c tag (e.lines * 64)))
  | none => false

/-- PASS_COMPLETE (09 R222, R230): a pass that has run writes its rows, after the passes issued into its tile before it, one that
is withdrawn among them (log entry 117). An uncorrectable
word in its plane or cellar entry fails every member of the pass while none has completed, and one among its rows or scales fails it alone. -/
def execPassComplete (co : CoreId) (id : Nat) (s : State) : Res :=
  match (s.core co).passes.find? (fun p => p.id == id) with
  | none => .next s
  | some p =>
    let c := co.ctx p.slot
    let earlier := (s.core co).passes.any (fun q => q.slot == p.slot && q.tile == p.tile && decide (q.id < p.id))
    if p.image.isEmpty || p.failed || earlier then .next s
    else if p.running && (s.planeBad co p.plane || s.entryBad co p.plane.tag) then .next (s.failEntry co p.plane.tag (fun q => q.stack == p.stack))
    else
      let s := s.modCore co (fun k => { k with passes := k.passes.map (fun q => if q.stack = p.stack then { q with running := false } else q) })
      let reads := ((List.range p.rows).map (fun r =>
        s.aRow c p r ++ s.aScales c p r ++ rangeFrom (tileAt co (s.tilePos c p.tile) ((p.base + r) * 512)) 512)).flatten
      match s.eccHit reads with
      | some bad => .next (s.failPasses co (fun q => q.id == id) 0x08 (zx (s.unplace c p bad)))
      | none =>
        .next (((s.runPass c p).modCore co (fun k => { k with passes := k.passes.filter (fun q => q.id != id) })).progress (meAgent co))

/-! ### Accumulator exchange (17 R385) -/

/-- Exchanges the contents of two ranges, errors included. -/
def State.swapRange (s : State) (a b n : Nat) : State :=
  let mv (x : Nat) : Nat := if a ≤ x ∧ x < a + n then x - a + b else if b ≤ x ∧ x < b + n then x - b + a else x
  let inn (x : Nat) : Bool := (decide (a ≤ x) && decide (x < a + n)) || (decide (b ≤ x) && decide (x < b + n))
  { s with mem := (s.mem.filter (fun e => inn e.1)).foldl (fun m e => Sparse.set (0 : Byte) m (mv e.1) e.2) (s.mem.filter (fun e => !inn e.1)),
           ecc := s.ecc.map mv }

/-- BANK_EXCHANGE_COMPLETE (17 R385): the first exchange under way ends; contents and positions are exchanged, which no program sees. -/
def execBankExchangeComplete (c : CoreId) (s : State) : Res :=
  match (s.core c).exchanges with
  | [] => .next s
  | (p, q) :: rest =>
    let swap (x : Nat) : Nat := if x = p then q else if x = q then p else x
    let map := ((CoreId.slots c).map (fun d => (List.range (s.tileCount d)).map (fun t => (d.ctx, t, swap (s.tilePos d t))))).flatten
    .next ((s.swapRange (tileAt c p 0) (tileAt c q 0) 65536).modCore c (fun k => { k with exchanges := rest, tileMap := map }))

end Sys2Proof.Machine
end

