-- ==== Sys2Proof/Machine/CeXe.lean ====
section
/-! DEFINITION. The copy engine and the collective engine (10 R236-R249): operand checks, transfers and their completion, stream slots,
reductions, recorded fetch-and-adds and multicasts. -/

namespace Sys2Proof.Machine

/-! ### Operands (10 R236) -/

/-- The check of a range of local S-space by an engine. -/
def State.nearRange (s : State) (c : CtxId) (a n : Nat) : Except (Nat × Word) Unit :=
  match sLoc a n with
  | .icb _ _ | .window _ _ => .error (0x06, zx a)
  | .tile _ _ => s.tileCheck c a n
  | .scratch => if inDocentArea a n then .error (0x06, zx a) else .ok ()
  | .hole => .error (if 0x80000000 ≤ a then 0x06 else 0x04, zx a)

/-- The check of an address operand of a transfer of `n` bytes in VA or local S-space, with its address: high bits, alignment, place. -/
def State.cxRange (s : State) (c : CtxId) (isS : Bool) (v : Word) (es n : Nat) : Except (Nat × Word) Nat :=
  if isS then
    let a := wfld v 0 32
    if a % es ≠ 0 then .error (0x03, zx a)
    else
      match s.nearRange c a n with
      | .error e => .error e
      | .ok _ => .ok a
  else if wfld v 56 8 ≠ 0 then .error (0x05, v)
  else if v.toNat % es ≠ 0 then .error (0x03, v)
  else if 2 ^ 56 < v.toNat + n then .error (0x05, v)
  else .ok v.toNat

/-- A window operand: window and offset of an aligned address in the window range. -/
def winOperand (v : Word) (es : Nat) : Except (Nat × Word) (Nat × Nat) :=
  let a := wfld v 0 32
  if a % es ≠ 0 then .error (0x03, zx a)
  else if a < 0x80000000 then .error (0x06, zx a)
  else .ok ((a - 0x80000000) / 0x08000000, (a - 0x80000000) % 0x08000000)

/-- The checks of a length operand: 0 does nothing, too long and not a multiple of the element size fault; the value TVAL takes for the
latter is a free value (log entry 17). -/
def lengthCheck (es : Nat) (v : Word) (s : State) (f : Nat → EngOut) : EngOut :=
  let n := v.toNat
  if n = 0 then .done 1 s
  else if 2 ^ 24 < n then .trap 0x06 v s
  else if n % es ≠ 0 then .trap 0x03 (Config.freeWord s.freeCtr) s.tick
  else f n

/-- The cost of a transfer (17 R379). -/
def transferCost (n : Nat) : Nat := max 1 ((n + 63) / 64)

/-- A transfer of a kind, everything else empty. -/
def blankTransfer (id : Nat) (k : TKind) (n epc : Nat) : Transfer :=
  ⟨id, k, 0, 0, false, false, n, 0, 1, 0, (0, 0, 0), [], [], [], false, false, [], none, epc⟩

/-- Adds to the bytes counted towards BBAR (10 R238). -/
def State.countBytes (s : State) (r : Rec) (n : Nat) : State :=
  if r.bbv then s.modStream s.agent (fun x => { x with counted := x.counted + n }) else s

/-- Starts a transfer. -/
def State.startTransfer (s : State) (f : Transfer → Transfer) (k : TKind) (n epc : Nat) : EngOut :=
  .done (transferCost n) (s.named.modStream s.agent (fun x => { x with transfers := x.transfers ++ [f (blankTransfer s.nextId k n epc)] }))

/-! ### CMOV, CFIL and CFOL (10 R240-R241) -/

/-- The element size of a size field. -/
def elemSize (e : Nat) : Nat := 2 ^ e

def execCmov (gd : Guard) (d a l p q e : Nat) (s : State) : Res :=
  s.guarded gd (fun r x s =>
    let c := s.agent.ctx
    lengthCheck (elemSize e) (x.a.getD l 0) s (fun n =>
      match s.cxRange c (q == 1) (x.a.getD a 0) (elemSize e) n, s.cxRange c (p == 1) (x.a.getD d 0) (elemSize e) n with
      | .error f, _ => .trap f.1 f.2 s
      | .ok _, .error f => .trap f.1 f.2 s
      | .ok src, .ok dst =>
        if p = q ∧ src < dst + n ∧ dst < src + n then .trap 0x06 (zx dst) s
        else (s.countBytes r n).startTransfer
          (fun t => { t with dst := dst, src := src, dstS := p == 1, srcS := q == 1, es := elemSize e }) .cmov n x.epc))

def execCfil (gd : Guard) (d l v p e : Nat) (s : State) : Res :=
  s.guarded gd (fun r x s =>
    let c := s.agent.ctx
    lengthCheck (elemSize e) (x.a.getD l 0) s (fun n =>
      match s.cxRange c (p == 1) (x.a.getD d 0) (elemSize e) n with
      | .error f => .trap f.1 f.2 s
      | .ok dst => (s.countBytes r n).startTransfer
          (fun t => { t with dst := dst, dstS := p == 1, es := elemSize e, val := x.a.getD v 0 }) .cfil n x.epc))

def execCfol (gd : Guard) (s : State) : Res :=
  s.guarded gd (fun r _ s =>
    if !r.fov then .trap 0x06 0 s
    else .done 1 (s.modStream s.agent (fun x => { x with armed := true })))

/-! ### CPUSH and CPOP (10 R244) -/

/-- The launch of an agent's task. -/
def State.launchOf (s : State) (c : CtxId) : Nat :=
  match s.task c with
  | some t => t.launch
  | none => 0

/-- The stream of a task's launch at an endpoint: outbound for a push, inbound for a pop. -/
def State.endpoint (s : State) (c : CtxId) (push : Bool) (ep : Nat) : Option StreamSt :=
  s.gallery.find? (fun z => z.launch == s.launchOf c && (if push then z.src == c.die && z.out == ep else z.dst == c.die && z.inp == ep))

/-- Whether a stream stalls: a die of it is under reset (16 R364), or a link between them is closed to it (15 R342-R343; log entry 109). -/
def State.stalled (s : State) (z : StreamSt) : Bool :=
  let p : Path := ⟨none, s.pkg, z.dst⟩
  (s.die z.src).resetAt.isSome || (s.die z.dst).resetAt.isSome 
    || (z.src != z.dst && (s.linkStopped z.src p || s.masked z.src p))

def execCpush (gd : Guard) (e k : Nat) (s : State) : Res :=
  s.guarded gd (fun _ x s =>
    let c := s.agent.ctx
    match s.endpoint c true e with
    | none => .trap 0x0B (zx e) s
    | some z =>
      let n := 2 ^ z.slog
      match s.cxRange c true (x.a.getD k 0) 512 n with
      | .error f => .trap f.1 f.2 s
      | .ok src =>
        if z.mayClaim (s.whoIs c) = false ∨ s.stalled z then .wait (.stream e) s
        else
          let who := s.whoIs c
          let k := (z.claim who).1
          let s := s.modGallery z.launch z.idx (fun z => (z.claim who).2)
          (s.stage s.agent (.push z.launch z.idx k)).startTransfer
            (fun t => { t with src := src, srcS := true, slot := (z.launch, z.idx, k) }) .cpush n x.epc)

def execCpop (gd : Guard) (e k : Nat) (s : State) : Res :=
  s.guarded gd (fun r x s =>
    let c := s.agent.ctx
    match s.endpoint c false e with
    | none => .trap 0x0B (zx e) s
    | some z =>
      let n := 2 ^ z.slog
      match s.cxRange c true (x.a.getD k 0) 512 n with
      | .error f => .trap f.1 f.2 s
      | .ok dst =>
        if z.mayPop (s.whoIs c) = false ∨ s.stalled z then .wait (.stream e) s
        else
          let who := s.whoIs c
          let k := (z.pop who).1
          let s := (s.acquire s.agent (fun h => h == .slot z.launch z.idx k)).modGallery z.launch z.idx (fun z => (z.pop who).2)
          ((s.stage s.agent (.pop z.launch z.idx k)).countBytes r n).startTransfer
            (fun t => { t with dst := dst, dstS := true, slot := (z.launch, z.idx, k) }) .cpop n x.epc)

/-- STREAM_WAIT_COMPLETE (10 R244): a slot has become free or filled, so the waiting CPUSH or CPOP may run on its stream's next turn. -/
def execStreamWaitComplete (at_ : CtxId) (s : State) : Res :=
  let a := at_.agent .ce
  match (s.stream a).wait with
  | .stream e =>
    let may (z : Option StreamSt) (f : StreamSt → Bool) : Bool :=
      match z with | some z => f z && !s.stalled z | none => false
    if may (s.endpoint at_ true e) (fun z => z.mayClaim (s.whoIs at_)) || may (s.endpoint at_ false e) (fun z => z.mayPop (s.whoIs at_)) then
      .next (s.modStream a (fun x => { x with wait := .none }))
    else .next s
  | _ => .next s

/-! ### XSND and XGAT (10 R245) -/

/-- Cuts `n` bytes at an offset into pieces that cross no 512-byte boundary: offset and length. -/
def cutPieces : Nat → Nat → Nat → List (Nat × Nat)
  | 0, _, _ => []
  | fuel + 1, off, n =>
    if n = 0 then []
    else
      let m := min n (512 - off % 512)
      (off, m) :: cutPieces fuel (off + m) (n - m)

/-- Whether XSND may write a range through a window; a notify port takes 32 bytes at offset 0 (15 R335). -/
def State.sendOk (s : State) (c : CtxId) (w off n : Nat) : Bool :=
  let x := s.window c.die w
  if x.tdie = 15 then x.valid s.pkg (s.asid c) && x.w && n == 32 && off == 0 else s.windowOk c w off n false true

/-- The target of a window range, as the descriptor gives it now (03 R73). -/
def Window.target (y : Window) (off : Nat) : Target := ⟨y.tpkg, y.tdie, y.tbase + off, y.key⟩

def execXsnd (gd : Guard) (d a l q : Nat) (s : State) : Res :=
  s.guarded gd (fun r x s =>
    let c := s.agent.ctx
    lengthCheck 8 (x.a.getD l 0) s (fun n =>
      match s.cxRange c (q == 1) (x.a.getD a 0) 8 n, winOperand (x.a.getD d 0) 8 with
      | .error f, _ => .trap f.1 f.2 s
      | .ok _, .error f => .trap f.1 f.2 s
      | .ok src, .ok (w, off) =>
        if !s.sendOk c w off n then .trap 0x07 (windowVal false w off) s
        else (s.countBytes r n).startTransfer
          (fun t => { t with src := src, srcS := q == 1, win := w, dst := off, targets := [(s.window c.die w).target off] }) .xsnd n x.epc))

/-- Changes a transfer of a stream. -/
def State.modTransfer (s : State) (a : AgentId) (id : Nat) (f : Transfer → Transfer) : State :=
  s.modStream a (fun x => { x with transfers := x.transfers.map (fun (t : Transfer) => if t.id = id then f t else t) })

/-- Whether a transfer still has window bytes to send or to ask for. -/
def Transfer.unsent (t : Transfer) : Bool :=
  match t.kind with
  | .xsnd | .xbcs => !(t.begun && t.pieces.isEmpty)
  | .xgat => !t.pieces.isEmpty
  | _ => false

/-- Whether the window bytes of a later transfer wait until an earlier one's have been sent: they meet at a target, and not both are read
(10 R237, 04 R74). -/
def Transfer.outAfter (x y : Transfer) : Bool :=
  y.unsent && !(x.kind == .xgat && y.kind == .xgat)
    && x.targets.any (fun p => y.targets.any (fun q =>
      p.tpkg == q.tpkg && p.tdie == q.tdie && decide (p.addr < q.addr + y.n) && decide (q.addr < p.addr + x.n)))

/-- Issues what a window read still has to ask for, once nothing earlier holds it. -/
def State.askMore (s : State) (a : AgentId) (t : Transfer) : State :=
  if ((s.stream a).transfers.takeWhile (fun y => y.id != t.id)).any t.outAfter then s
  else
    let r := s.askPieces a t.id t.pieces
    r.1.modTransfer a t.id (fun t => { t with pieces := r.2.1, want := t.want ++ r.2.2 })

def execXgat (gd : Guard) (d a l : Nat) (s : State) : Res :=
  s.guarded gd (fun r x s =>
    let c := s.agent.ctx
    lengthCheck 8 (x.a.getD l 0) s (fun n =>
      match winOperand (x.a.getD a 0) 8, s.cxRange c true (x.a.getD d 0) 8 n with
      | .error f, _ => .trap f.1 f.2 s
      | .ok _, .error f => .trap f.1 f.2 s
      | .ok (w, off), .ok dst =>
        if !s.windowOk c w off n true false then .trap 0x07 (windowVal false w off) s
        else
          let y := s.window c.die w
          let ps := (cutPieces (n / 512 + 2) off n).map
            (fun p => (⟨w, p.1, y.tpkg, y.tdie, y.tbase + p.1, y.key, List.replicate p.2 none, w * 0x08000000 + p.1⟩ : Piece))
          match (s.countBytes r n).startTransfer
              (fun t => { t with dst := dst, dstS := true, src := w * 0x08000000 + off, win := w, targets := [y.target off], pieces := ps })
              .xgat n x.epc with
          | .done k s' =>
            match (s'.stream s'.agent).transfers.getLast? with
            | some t => .done k (s'.askMore s'.agent t)
            | none => .done k s'
          | o => o))

/-! ### XBCS (10 R248) -/

/-- TVAL names a group by its number, with bit 40 set; a transfer holds group g as window 16 + g. -/
def execXbcs (gd : Guard) (p d a l : Nat) (s : State) : Res :=
  s.guarded gd (fun r x s =>
    let c := s.agent.ctx
    lengthCheck 8 (x.a.getD l 0) s (fun n =>
      let off := wfld (x.a.getD d 0) 0 32
      match s.cxRange c true (x.a.getD a 0) 8 n with
      | .error f => .trap f.1 f.2 s
      | .ok src =>
        if off % 8 ≠ 0 then .trap 0x03 (zx off) s
        else if !s.groupOk c.die p (s.asid c) || (s.members c.die p).any (fun m => decide (m.size < off + n)) then
          .trap 0x07 (windowVal true p off) s
        else
          (s.countBytes r (n * (s.members c.die p).length)).startTransfer
            (fun t => { t with src := src, srcS := true, win := 16 + p, dst := off,
                               targets := (s.members c.die p).map (fun m => ⟨m.tpkg, m.tdie, m.sbase + off, 0⟩) }) .xbcs n x.epc))

/-! ### Transfers in flight (10 R237-R239) -/

/-- What a transfer reads of VA or local S-space. -/
def Transfer.reads (t : Transfer) : Option (Bool × Nat) :=
  match t.kind with
  | .cmov | .xsnd => some (t.srcS, t.src)
  | .cpush | .xbcs => some (true, t.src)
  | _ => none
/-- What a transfer writes of VA or local S-space. -/
def Transfer.writes (t : Transfer) : Option (Bool × Nat) :=
  match t.kind with
  | .cmov | .cfil => some (t.dstS, t.dst)
  | .cpop | .xgat => some (true, t.dst)
  | _ => none

/-- Whether two spans of bytes meet. -/
def spansMeet (x : Option (Bool × Nat)) (n : Nat) (y : Option (Bool × Nat)) (m : Nat) : Bool :=
  match x, y with
  | some (p, a), some (q, b) => p == q && decide (a < b + m) && decide (b < a + n)
  | _, _ => false

/-- The places of a span of VA, as its pages give them now. -/
def State.spanPlaces (s : State) (a : AgentId) (x : Option (Bool × Nat)) (n : Nat) : List (Nat × Nat) :=
  match x with
  | some (false, va) => s.placesOf a.coreId a.kind (s.asid a.ctx) (n / 65536 + 2) va n
  | _ => []

/-- Whether two spans of an agent touch a common byte: of one address, or of two VAs of one place (04 R74, 10 R237). -/
def State.spansClash (s : State) (a : AgentId) (x : Option (Bool × Nat)) (n : Nat) (y : Option (Bool × Nat)) (m : Nat) : Bool :=
  spansMeet x n y m
    || (s.spanPlaces a x n).any (fun p => (s.spanPlaces a y m).any (fun q => decide (p.1 < q.1 + q.2) && decide (q.1 < p.1 + p.2)))

/-- Whether a later transfer waits for an earlier one: a byte read after or before it is written, or written twice, here or at a target. A
send whose source is read is waited for no longer here. -/
def State.waitsFor (s : State) (a : AgentId) (x y : Transfer) : Bool :=
  x.outAfter y || s.spansClash a x.reads x.n y.writes y.n || s.spansClash a x.writes x.n y.writes y.n
    || (!y.begun && s.spansClash a x.writes x.n y.reads y.n)

/-- Whether a push cannot deliver its slot now: its stream stalls. -/
def State.pushStalled (s : State) (t : Transfer) : Bool :=
  t.kind == .cpush && s.gallery.any (fun z => z.launch == t.slot.1 && z.idx == t.slot.2.1 && s.stalled z)

/-- Whether a span lies in a tile that is being exchanged. -/
def State.spanMoving (s : State) (c : CtxId) (x : Option (Bool × Nat)) (n : Nat) : Bool :=
  match x with
  | some (true, a) => decide (0x10000000 ≤ a ∧ a < 0x10100000) && (tilesOf a n).any (s.exchanging c)
  | _ => false

/-- The global addresses of a span. -/
def State.mapSpan (s : State) (a : AgentId) (x : Bool × Nat) (n : Nat) (r w : Bool) : MapRes :=
  if x.1 then .ok (s.sAddrs a.ctx x.2 n) s else s.mapVA a.coreId a.kind (s.asid a.ctx) x.2 n r w

/-- The bytes a transfer has to write, before its source is read. -/
def Transfer.source (t : Transfer) (s : State) (a : AgentId) : MapRes :=
  match t.kind with
  | .cmov | .xsnd => s.mapSpan a (t.srcS, t.src) t.n true false
  | .cpush | .xbcs => s.mapSpan a (true, t.src) t.n true false
  | .cpop => .ok (rangeFrom (streamAt t.slot.1 t.slot.2.1 t.slot.2.2 0) t.n) s
  | .cfil | .xgat => .ok [] s

/-- The bytes of a transfer whose source addresses are known, which its agent reads weakly. -/
def Transfer.bytes (t : Transfer) (s : State) (a : AgentId) (as : List Nat) : List Byte × State :=
  match t.kind with
  | .cfil => ((List.range t.n).map (fun i => BitVec.ofNat 8 (wfld t.val (8 * (i % t.es)) 8)), s)
  | .xgat => ((List.range t.n).map (fun i => gotByte t.got (t.src + i)), s)
  | _ => s.see a as

/-- The bytes of a transfer land: in a stream's slot, or weakly in VA or local S-space, as bytes its command counts. -/
def Transfer.land (t : Transfer) (s : State) (a : AgentId) (cs : List (Nat × Byte)) : State :=
  match t.writes with
  | some (isS, d) => s.writeHeld a [.counted a] (spotsAt isS d cs)
  | none => s.store cs

/-- Where the bytes of a transfer go. -/
def Transfer.target (t : Transfer) (s : State) (a : AgentId) : MapRes :=
  match t.kind with
  | .cmov | .cfil => s.mapSpan a (t.dstS, t.dst) t.n false true
  | .cpop | .xgat => s.mapSpan a (true, t.dst) t.n false true
  | .cpush => .ok (rangeFrom (streamAt t.slot.1 t.slot.2.1 t.slot.2.2 0) t.n) s
  | .xsnd | .xbcs => .ok [] s

/-- The pieces a send issues: for each target, its 512-byte pieces. -/
def Transfer.posts (t : Transfer) (bs : List Byte) : List Piece :=
  (t.targets.map (fun y => (cutPieces (t.n / 512 + 2) t.dst t.n).map (fun p =>
    (⟨t.win, p.1, y.tpkg, y.tdie, y.addr + (p.1 - t.dst), y.key, ((bs.drop (p.1 - t.dst)).take p.2).map some, 0⟩ : Piece)))).flatten

/-- Removes a transfer. -/
def State.dropTransfer (s : State) (a : AgentId) (id : Nat) : State :=
  s.modStream a (fun x => { x with transfers := x.transfers.filter (fun t => t.id != id) })

/-- The home of one byte of a span, if its page gives it. -/
def MapRes.home (r : MapRes) : Option Nat :=
  match r with
  | .ok as _ => as.head?
  | _ => none

/-- The value one byte of a transfer would bring, if its page gives it, no uncorrectable word holds it, and its reply has come. -/
def Transfer.sourceByte (t : Transfer) (s : State) (a : AgentId) (i : Nat) : Option Byte :=
  let at_ (h : Option Nat) : Option Byte := (h.filter (fun h => !s.ecc.contains (h / 8 * 8))).map s.rd
  match t.kind with
  | .cmov => at_ (s.mapSpan a (t.srcS, t.src + i) 1 true false).home
  | .cpush => at_ (s.mapSpan a (true, t.src + i) 1 true false).home
  | .cpop => at_ (some (streamAt t.slot.1 t.slot.2.1 t.slot.2.2 i))
  | .cfil => some (BitVec.ofNat 8 (wfld t.val (8 * (i % t.es)) 8))
  | .xgat => if t.got.any (fun g => decide (g.1 ≤ t.src + i) && decide (t.src + i < g.1 + g.2.length)) then some (gotByte t.got (t.src + i)) else none
  | .xsnd | .xbcs => none

/-- The home of one byte that a transfer writes here, if its page gives it. -/
def Transfer.targetByte (t : Transfer) (s : State) (a : AgentId) (i : Nat) : Option Nat :=
  match t.kind with
  | .cmov | .cfil => (s.mapSpan a (t.dstS, t.dst + i) 1 false true).home
  | .cpop | .xgat => (s.mapSpan a (true, t.dst + i) 1 false true).home
  | .cpush => some (streamAt t.slot.1 t.slot.2.1 t.slot.2.2 i)
  | .xsnd | .xbcs => none

/-- Raises a fault of a transfer in flight: each destination byte holds its old or the transferred value, wherever it lies from what failed (10
R239; log entry 5). A send whose source fails has sent nothing. -/
def State.failTransfer (s : State) (a : AgentId) (t : Transfer) (cause : Nat) (v : Word) : State :=
  let cells := (List.range t.n).filterMap (fun i =>
    match t.targetByte s a i, t.sourceByte s a i with
    | some d, some b => if Config.freeBit (s.freeCtr + i) then some (d, b) else none
    | _, _ => none)
  let s := { s.store cells with freeCtr := s.freeCtr + t.n }
  (s.dropTransfer a t.id).trapAgent a cause v

/-- The value TVAL takes for an uncorrectable source byte: its address in its own space. -/
def Transfer.eccVal (t : Transfer) (as : List Nat) (bad : Nat) : Word :=
  match t.kind with
  | .cpop => zx (as.idxOf bad)
  | _ => zx (t.src + as.idxOf bad)

/-- Sends the pieces of a posted transfer whose source is read, and ends it once every piece is acknowledged. -/
def State.pushPosted (s : State) (a : AgentId) (t : Transfer) : State :=
  let r := s.sendPieces a t.id t.pieces
  let s := r.1.modTransfer a t.id (fun t => { t with pieces := r.2 })
  let out := (s.core a.coreId).posted.any (fun p => p.access == some t.id && p.agent == a)
  if r.2.isEmpty && !out then (s.dropTransfer a t.id).progress a else s

/-- Performs a transfer that nothing earlier holds: its source is read, then its bytes land or its pieces are posted. -/
def State.performTransfer (s : State) (a : AgentId) (t : Transfer) : State :=
  let parkAt (s : State) (va kind : Nat) (wr : Bool) : State :=
    (s.modTransfer a t.id (fun t => { t with parked := true })).park a.die va (s.asid a.ctx) kind wr (.engine a t.id)
  match t.source s a, t.fault with
  | .busy _, _ => s
  | .fault _ _ s', some f => s'.failTransfer a t f.1 f.2
  | .absent _ _ s', some f => s'.failTransfer a t f.1 f.2
  | .fault cause va s', none => s'.failTransfer a t cause (zx va)
  | .absent va kind s', none => parkAt s' va kind false
  | .ok as s', f =>
    match s'.eccHit as, f with
    | some bad, none => s'.failTransfer a t 0x08 (t.eccVal as bad)
    | _, _ =>
      let q := t.bytes s' a as
      let bs := q.1
      let s' := q.2
      if t.kind = .xsnd ∨ t.kind = .xbcs then
        match f with
        | some f => s'.failTransfer a t f.1 f.2
        | none =>
          let t' := { t with begun := true, pieces := t.posts bs }
          (s'.modTransfer a t.id (fun _ => t')).pushPosted a t'
      else
        match t.target s' a, f with
        | .busy _, _ => s
        | .fault _ _ s'', some f => s''.failTransfer a t f.1 f.2
        | .absent _ _ s'', some f => s''.failTransfer a t f.1 f.2
        | .fault cause va s'', none => s''.failTransfer a t cause (zx va)
        | .absent va kind s'', none => parkAt s'' va kind true
        | .ok _ s'', some f => s''.failTransfer a t f.1 f.2
        | .ok ds s'', none => ((t.land s'' a (ds.zip bs)).dropTransfer a t.id).progress a

/-- TRANSFER_COMPLETE (10 R237): a transfer is performed once no earlier transfer of its agent holds it and its window replies have come;
a send ends with its last acknowledgement. -/
def execTransferComplete (ag : AgentId) (id : Nat) (s : State) : Res :=
  let x := s.stream ag
  match x.transfers.find? (fun t => t.id == id) with
  | none => .next s
  | some t =>
    let earlier := x.transfers.takeWhile (fun y => y.id != id)
    if t.parked then .next s
    else if t.begun then .next (s.pushPosted ag t)
    else if earlier.any (s.waitsFor ag t) || s.pushStalled t || s.spanMoving ag.ctx t.reads t.n || s.spanMoving ag.ctx t.writes t.n then .next s
    else if !t.pieces.isEmpty && t.fault.isNone then .next (s.askMore ag t)
    else if !t.want.isEmpty then .next s
    else .next (s.performTransfer ag t)

/-! ### XRED (10 R246) -/

/-- The width in bytes of an XRED element. -/
def redSize (t : Nat) : Nat := if t = 1 ∨ t = 2 then 2 else 4

/-- The sum of two elements, as encodings. -/
def redSum (t x y : Nat) : Nat :=
  match t with
  | 0 => (fp32.sum 0 0 false [fp32.decode x, fp32.decode y]).1
  | 1 => (bf16.sum 0 0 false [bf16.decode x, bf16.decode y]).1
  | 2 => (fp16.sum 0 0 false [fp16.decode x, fp16.decode y]).1
  | _ => (x + y) % 2 ^ 32

/-- Element by element sums of two byte runs of `n` bytes. -/
def redBytes (t n : Nat) (x y : List Byte) : List Byte :=
  let w := redSize t
  let a := leNat x
  let b := leNat y
  ((List.range (n / w)).map (fun j => natLe w (redSum t (fld a (8 * w * j) (8 * w)) (fld b (8 * w * j) (8 * w))))).flatten

/-- The addition of a filled slot into local data, then its release. -/
def State.addSlot (s : State) (r : Rec) (t h z dst key : Nat) : EngOut :=
  let a := s.agent
  let src := s.pailSlot key 1 0
  let x := s.stream a
  let busy := x.transfers.any (fun y =>
    spansMeet (some (true, dst)) z y.writes y.n || spansMeet (some (true, src)) z y.writes y.n
      || (!y.begun && spansMeet (some (true, dst)) z y.reads y.n))
  if busy || s.spanMoving a.ctx (some (true, dst)) z || s.spanMoving a.ctx (some (true, src)) z then .wait (.counter 0) s
  else
    let ss := s.sAddrs a.ctx src z
    let ds := s.sAddrs a.ctx dst z
    match s.eccHit ss, s.eccHit ds with
    | some bad, _ => .trap 0x08 (zx (src + ss.idxOf bad)) s
    | none, some bad => .trap 0x08 (zx (dst + ds.idxOf bad)) s
    | none, none =>
      let q := s.see a ss
      let u := q.2.see a ds
      let s := u.2.writeHeld a [.counted a] (spotsAt true dst (ds.zip (redBytes t z q.1 u.1)))
      (s.countBytes r z).engAdvance r 1 h 1 (transferCost z)

def execXred (gd : Guard) (d h t : Nat) (s : State) : Res :=
  s.guarded gd (fun r x s =>
    s.engPail (r.pailOf h) (fun key =>
      let z := pailSize (s.word (key + 3))
      match s.cxRange s.agent.ctx true (x.a.getD d 0) (redSize t) z with
      | .error f => .trap f.1 f.2 s
      | .ok dst =>
        match s.engPailWait r 0 h 1 1 with
        | .done _ s' =>
          match s'.addSlot r t h z dst key with
          | .wait w _ => .wait w s
          | o => o
        | o => o))

/-! ### XCAD (10 R247) -/

def execXcad (gd : Guard) (d v o z : Nat) (s : State) : Res :=
  s.guarded gd (fun r x s =>
    let c := s.agent.ctx
    let n := if z = 1 then 8 else 4
    match winOperand (x.a.getD d 0) n, s.cxRange c true (x.a.getD o 0) n n with
    | .error f, _ => .trap f.1 f.2 s
    | .ok (w, off), e =>
      if !s.windowOk c w off n true true then .trap 0x07 (windowVal false w off) s
      else
        match e with
        | .error f => .trap f.1 f.2 s
        | .ok old =>
          if 32 ≤ x.xcads.length then .trap 0x06 (zx 33) s
          else
            .done 1 ((s.countBytes r n).modStream s.agent (fun y =>
              { y with xcads := y.xcads ++ [⟨w, off, (s.window c.die w).target off, n, zx (wfld (x.a.getD v 0) 0 (8 * n)), old, none, none⟩] })))

end Sys2Proof.Machine
end

