-- ==== Sys2Proof/Machine/Marks.lean ====
section
/-! DEFINITION. The start of an engine command and the progress mark as one atomic action (03 R69-R71, 05 R105, 08 R205, 09 R221,
10 R241, R247, 14 R322, 16 R350). -/

namespace Sys2Proof.Machine

/-! ### Ladder and clocks at marks (17 R376-R377) -/

/-- The programmed divisor of an agent's unit takes effect, modified by the ladder. The VE itself runs at its programmed divisor, and each
of its slots takes the ladder's doubling at its own mark (Core.divisorOf). -/
def State.takeDivisor (s : State) (a : AgentId) : State :=
  s.modCore a.coreId (fun k =>
    let p := k.clkdiv.getD a.kind.num 1
    if a.kind = .ve then { k.setDivisor 1 p s.cycle with slow := setNth k.slow a.slot (decide (1 ≤ s.depthOf a.die)) }
    else k.setDivisor a.kind.num (ladderDivisor a.kind (s.depthOf a.die) p) s.cycle)

/-! ### What holds a slot at a mark -/

/-- Whether a task lets its engines act: it is there and not frozen. -/
def State.running (s : State) (c : CtxId) : Bool :=
  match s.task c with
  | some t => t.started && !t.frozen
  | none => false

/-- Whether a slot at a mark is held: by the ladder's step 7, by a pre-emption, or by a rolling reset that waits for it (16 R351, R358,
17 R376). -/
def State.heldAtMark (s : State) (a : AgentId) : Bool :=
  decide (7 ≤ s.depthOf a.die)
    || (match s.task a.ctx with | some t => t.preempting || t.preempted | none => false)
    || (s.core a.coreId).rolling.getD (a.kind.num - 1) false

/-- Whether the next record of a slot's queue starts: no command is current, its task runs, and neither the ladder, a pre-emption nor a rolling
reset holds the slot (16 R358, 17 R376). -/
def State.startsCommand (s : State) (a : AgentId) : Bool :=
  let x := s.stream a
  !x.active && (match x.queue.head? with | some r => r.resume.isSome | none => false) && s.running a.ctx && !s.heldAtMark a
    && !(a.kind == .xe && decide (2 ≤ s.depthOf a.die))

/-- ENGINE_COMMAND_START (01 R22, 14 R322): the next record of a slot's queue becomes its current command, under the bindings the task
has then (04 R86-R87), with what was published to it (04 R84), and with a VE's generator reseeded (02 R40). -/
def execEngineCommandStart (ag : AgentId) (s : State) : Res :=
  let x := s.stream ag
  match x.queue.head?, s.startsCommand ag with
  | some r, true =>
    match r.resume with
    | none => .next s
    | some idx =>
      let s := (s.acquire ag (fun h => match h with | .command b n => b == ag && decide (n ≤ x.retired + 1) | _ => false)).setStream ag
        ({ x with active := true, binds := s.bindings ag.ctx, prevRow := none, markDue := false, atMark := false }.beginPass r idx)
      .next (if ag.kind = .ve then s.modVe ag.ctx (fun v => v.reseed r.acc) else s)
  | _, _ => .next s

/-! ### Recorded fetch-and-adds (10 R247) -/

/-- The positions and records of a list. -/
def numbered {α : Type} (l : List α) : List (Nat × α) := (List.range l.length).zip l

/-- Sends one recorded XCAD under a fresh tag. -/
def State.sendXcad (s : State) (a : AgentId) (i : Nat) (q : Xcad) : Option State :=
  let y := q.target
  match s.freeTag a.die with
  | none => none
  | some (tag, gen) =>
    (s.askFadd a.coreId y.tpkg y.tdie (.xcad a i) y.addr q.size q.addend).map
      (fun s => s.modStream a (fun x => { x with issuing := true, xcads := setItem x.xcads i { q with req := some (a.die, tag, gen) } }))

/-- Sends the recorded XCADs not yet issued, in program order, as far as the tags suffice. -/
def State.sendXcads (s : State) (a : AgentId) : List (Nat × Xcad) → State
  | [] => s
  | (i, q) :: t =>
    if q.req.isSome then s.sendXcads a t
    else
      match s.sendXcad a i q with
      | none => s
      | some s' => s'.sendXcads a t

/-- Writes the returned old values to their addresses. -/
def State.writeOlds (s : State) (a : AgentId) (l : List Xcad) : State :=
  l.foldl (fun s q =>
    match q.answer with
    | some (some v) => s.write a (spotsAt true q.old ((s.sAddrs a.ctx q.old q.size).zip (natLe q.size v.toNat)))
    | _ => s) s

/-! ### The atomic action -/

/-- What the parts of a mark come to: it goes on, it waits, or the task traps and the mark is not taken. -/
inductive MarkOut where
  | ok (s : State)
  | wait (s : State)
  | trap (cause : Nat) (v : Word) (s : State)

/-- The byte-barrier add of a command brings a word to a new value: it publishes the command's counted bytes, and nothing else (04 R92). -/
def State.barrierMark (s : State) (a : AgentId) (key : Nat) (w : Word) : State :=
  let old := s.word key
  let u := if s.order.quiet then s
    else s.mapWrites (fun v => if v.holders.contains (.counted a) then { v with holders := v.holders ++ [.phase key] } else v)
  let u := u.setWord key w
  if semMode old = 1 ∧ semPhase old ≠ semPhase w then u.flip key a.die else u

/-- The bytes a command has counted are no longer counted. -/
def State.uncount (s : State) (a : AgentId) : State :=
  if s.order.quiet then s else s.mapWrites (fun w => { w with holders := w.holders.filter (fun h => h != .counted a) })

/-- The byte-barrier add of a final mark (03 R66, 10 R238): counted as a vault operation. -/
def State.markBarrier (s : State) (a : AgentId) (r : Rec) : MarkOut :=
  let x := s.stream a
  if !r.bbv || x.counted == 0 then .ok s
  else
    match s.handle a.ctx true r.bbar with
    | .error e => .trap e (zx r.bbar) s
    | .ok key =>
      let n := s.countOp a
      if !n.1 then .ok n.2
      else
        match semAdd (n.2.word key) x.counted with
        | .error e => .trap e (zx r.bbar) s
        | .ok w => .ok (n.2.barrierMark a key w)

/-- The follow-on of a final mark (10 R241), under the rules of CMD: its image is checked before it waits for a full queue. What the CE has written is
published to it (04 R84; log entry 7). -/
def State.markFollow (s : State) (a : AgentId) (r : Rec) : MarkOut :=
  if !(s.stream a).armed then .ok s
  else
    let va := r.follow
    let me := a.ctx.agent .me
    let q := s.stream me
    if wfld (zx va) 56 8 ≠ 0 then .trap 0x05 (zx va) s
    else
      match s.mapVA a.coreId a.kind (s.asid a.ctx) va 256 true false with
      | .fault cause v s' => .trap cause (zx v) s'
      | .busy s' => .wait s'
      | .absent v kind s' =>
        .wait ((s'.modStream a (fun x => { x with wait := .parked })).park a.die v (s'.asid a.ctx) kind false (.engine a 0))
      | .ok as s' =>
        match s'.eccHit as with
        | some bad => .trap 0x08 (zx (va + as.idxOf bad)) s'
        | none =>
          let b := s'.glance a 0 as
          if !recLegal b 1 then .trap 0x01 (zx va) s'
          else if 64 ≤ q.queue.length then .wait s'
          else
            .ok ((s'.publish a (fun _ => true) (.command me (q.appended + 1))).modStream me (fun q => { q with queue := q.queue ++ [recOf b va], appended := q.appended + 1 }))

/-- Whether an interval's operations make an instance unreplayable once final (16 R362). -/
def spoils (l : List Staged) : Bool :=
  l.any (fun o => match o with | .publish _ _ _ v | .release _ _ _ v => v | .push .. | .pop .. => true | _ => false)

/-- What the VE and the ME write at a mark outside their reset domains (02 R40, 08 R198, R205, 09 R221). -/
def State.writeShadow (s : State) (a : AgentId) (acc : Nat) : State :=
  match a.kind with
  | .ve =>
    (s.modVe a.ctx (fun v => ({ v with shadow := ⟨v.p, v.tile, v.half, v.cfg⟩ } : Ve).reseed acc)).modCtx a.ctx
      (fun x => { x with voted := 0, revote := 0 })
  | .me => s.modMe a.ctx (fun m => { m with shadow := ⟨m.cat, m.names, m.plane0, m.plane1, m.active⟩ })
  | _ => s

/-- Commits the interval: staged operations final, progress area and shadow written, then the next pass or the next command. -/
def State.commitMark (s : State) (a : AgentId) (r : Rec) : State :=
  let x := s.stream a
  let r' : Rec := { r with acc := (r.acc + 1) % 2 ^ 32, mi := x.idx }
  let s := if spoils x.staged || !x.xcads.isEmpty then s.spoil a.ctx else s
  let s := if isLast x.idx r.bound then s.uncount a else s
  let s := ((s.commitCounts a).writeShadow a r'.acc).takeDivisor a
  let s := s.modCore a.coreId (fun k => { k with wdReset := setNth k.wdReset (a.kind.num - 1) false })
  let s := s.progress a
  s.modStream a (fun x =>
    let y : Stream := { x with staged := [], countedMark := x.counted, armedMark := x.armed, xcads := [], issuing := false, markDue := false,
                               markAsked := false, queue := r' :: x.queue.drop 1 }
    match nestNext x.idx r.bound with
    | some idx => { y.beginPass r' idx with prevRow := some (passRow r x.idx), atMark := true }
    | none => { y with queue := y.queue.drop 1, active := false, atEnd := false, inBody := false, counted := 0, countedMark := 0, armed := false,
                       armedMark := false, retired := x.retired + 1, atMark := true, wait := .none, binds := [] })

/-- The vault words a mark uses: those of its staged operations, and at a final mark the byte barrier's. -/
def State.markKeys (s : State) (a : AgentId) (r : Rec) : List Nat :=
  let x := s.stream a
  (x.staged.map (Staged.keys a.die)).flatten
    ++ (if isLast x.idx r.bound && r.bbv && x.counted != 0 then (match s.handle a.ctx true r.bbar with | .ok key => [key] | .error _ => []) else [])

/-- A mark whose XCADs have answered fails: they stay performed, their old values are written, and their records go (10 R247; log entry 99). -/
def State.failMark (s : State) (a : AgentId) : State :=
  if (s.stream a).xcads.isEmpty then s else (s.writeOlds a (s.stream a).xcads).modStream a (fun x => { x with xcads := [], issuing := false })

/-- The mark once every access of its interval is complete and every XCAD has answered. It waits for an exchange that an old value's tile is
in (17 R385), and a word of the vault whose copies have both failed resets the die instead (16 R364). -/
def State.takeMark (s : State) (a : AgentId) (r : Rec) : MarkOut :=
  let x := s.stream a
  if x.xcads.any (fun q => s.spanMoving a.ctx (some (true, q.old)) q.size) then .wait s
  else
  match s.failedWord a (s.markKeys a r) with
  | some k => .wait (s.vaultFailure k)
  | none =>
  match x.xcads.find? (fun q => q.answer == some none) with
  | some q =>
    .trap 0x07 (windowVal false q.win q.off) (s.failMark a)
  | none =>
    let last := isLast x.idx r.bound
    match (if last then s.markFollow a r else .ok s) with
    | .ok s1 =>
      match s1.applyAll a x.staged with
      | .error e => .trap e.1 (zx e.2) (s.failMark a)
      | .ok s2 =>
        match (if last then s2.markBarrier a r else .ok s2) with
        | .ok s3 => .ok ((s3.writeOlds a x.xcads).commitMark a r)
        | .wait _ => .wait s
        | .trap cause v _ => .trap cause v (s.failMark a)
    | .trap cause v s' => .trap cause v (s'.failMark a)
    | o => o

/-- Whether every access of an engine's interval is complete (03 R69, 10 R237). -/
def State.settled (s : State) (a : AgentId) : Bool :=
  let x := s.stream a
  x.transfers.isEmpty && !((s.core a.coreId).posted.any (fun p => p.agent == a && !p.drop))
    && (if a.kind = .ve then (s.ve a.ctx).pend.all (fun y => y.done) else true)
    && (if a.kind = .me then !s.ownsTile a.ctx && !((s.core a.coreId).passes.any (fun p => p.slot == a.slot)) else true)

/-- PROGRESS_MARK (03 R69): at the end of a pass at which a mark is due, once the interval's accesses are complete, its recorded XCADs are
issued and answered and the mark is taken, every write of the interval being performed; a refused posted write of the engine takes its place as a trap (03 R61). A mark that has begun
to issue its XCADs ends even while its task is frozen (16 R350). -/
def execProgressMark (ag : AgentId) (s : State) : Res :=
  let x := s.stream ag
  match x.current with
  | none => .next s
  | some r =>
    if !x.atEnd || !(s.running ag.ctx || x.issuing) || !s.settled ag || x.wait == .parked then .next s
    else
      match x.reports with
      | v :: t => .next ((s.modStream ag (fun x => { x with reports := t })).trapAgent ag 0x07 v)
      | [] =>
        if x.xcads.any (fun q => q.answer.isNone) then .next (s.sendXcads ag (numbered x.xcads))
        else
          match (s.performOwn ag).takeMark ag r with
          | .ok s' => .next s'
          | .wait s' => .next s'
          | .trap cause v s' => .next (s'.trapAgent ag cause v)

end Sys2Proof.Machine
end

