-- ==== Sys2Proof/Machine/Fetch.lean ====
section
/-! DEFINITION. Fetching: the instruction an SCU context or an engine stream stands at (05 R99-R104), and when an agent may take a turn
(01 R27-R28, 13 R281, 16 R353, R358, 17 R376). -/

namespace Sys2Proof.Machine

/-- The map of an agent kind's words (05 R99). -/
def AgentMap (k : AgentKind) : Sys2Proof.Stream :=
  match k with
  | .scu => .scu
  | .ve => .ve
  | .me => .me
  | .ce => .ce
  | .xe => .xe

/-- What a decoded word stands for: the instruction, or the illegal word itself (05 R100). -/
def orIllegal (w : Nat) (r : Except Reject Instr) : Instr :=
  match r with
  | .ok i => i
  | .error _ => .illegalInstruction w

/-- A halfword an SCU context fetches: the docent's from docent memory, which reads zero above its 4096 (13 R270), a task's from
I-space. -/
def State.fetchHalf (s : State) (c : CtxId) (i : Nat) : Nat :=
  if c.ctx = 4 then (if i < 4096 then s.rdNat (docentAt c.coreId (2 * i)) 2 else 0) else s.ispaceHalf c.coreId i

/-- The instruction of an SCU context (05 R99-R100). -/
def State.fetchScu (s : State) (c : CtxId) : Instr :=
  let pc := (s.ctx c).pc
  let h := s.fetchHalf c pc
  if 16384 ≤ pc then .illegalInstruction 0x10000
  else if h % 2 = 0 then orIllegal h (decode16 h)
  else if pc = 16383 then .illegalInstruction h
  else
    let w := h + 65536 * s.fetchHalf c (pc + 1)
    orIllegal w (decode32 .scu w)

/-- The instruction of an engine stream (05 R100, R103-R104): at the start of a block only a BLK, and no word that straddles the end of a
body. -/
def State.fetchEngine (s : State) (a : AgentId) : Instr :=
  let x := s.stream a
  let h := s.ispaceHalf a.coreId x.epc
  if 16384 ≤ x.epc then .illegalInstruction 0x10000
  else if h % 2 = 0 ∨ x.epc = 16383 then .illegalInstruction h
  else
    let w := h + 65536 * s.ispaceHalf a.coreId (x.epc + 1)
    if x.inBody then
      if x.bodyStart + x.bodyLen < x.epc + 2 then .illegalInstruction w else orIllegal w (decode32 (AgentMap a.kind) w)
    else
      match decode32 (AgentMap a.kind) w with
      | .ok (.blk l r) => .blk l r
      | _ => .illegalInstruction w

/-- The uncorrectable word that the bytes of an instruction touch, as TVAL gives it: a byte offset in I-space or docent memory (03 R72; log entry
77). -/
def State.codeBad (s : State) (base i : Nat) : Option Word :=
  let first := s.eccHit (rangeFrom (base + 2 * i) 2)
  let h := s.rdNat (base + 2 * i) 2
  ((if first.isSome ∨ h % 2 = 0 then first else s.eccHit (rangeFrom (base + 2 * i) 4)).map (fun a => zx (a - base)))

/-- The uncorrectable word in the instruction that an agent fetches: a context's, unless its instruction has issued and waits, or a stream's, unless
its instruction waits. -/
def State.fetchBad (s : State) (a : AgentId) : Option Word :=
  if s.ecc.isEmpty then none
  else if a.kind = .scu then
    let x := s.ctx a.ctx
    if x.blocked ∨ x.parked ≠ .no then none
    else if a.slot = 4 then (if x.pc < 4096 then s.codeBad (docentAt a.coreId 0) x.pc else none)
    else if x.pc < 16384 then s.codeBad (ispaceAt a.coreId 0) x.pc else none
  else
    let x := s.stream a
    if x.wait = .none ∧ x.current.isSome ∧ s.windowHeld a = false ∧ x.epc < 16384 then s.codeBad (ispaceAt a.coreId 0) x.epc else none

/-- Whether a core runs: its die is not in reset, and the core is not in reset (16 R363-R364, 17 R384). -/
def State.coreRuns (s : State) (c : CoreId) : Bool :=
  decide (s.mode = .running) && (s.core c).crst.isNone && (s.die c.die).resetAt.isNone

/-- Whether an SCU context may issue: a task that has started and neither ended, stopped nor frozen outside its handler, or whose frozen context
has an issued access to end (13 R282); or the docent while it is not parked, as it is while it is being loaded. -/
def State.scuReady (s : State) (c : CtxId) : Bool :=
  s.coreRuns c.coreId
    && (if c.ctx = 4 then !(s.ctx c).park
        else
          match s.task c with
          | some t => t.started && !t.parked && !t.preempting && !t.preempted && (!t.frozen || t.inHandler || (s.ctx c).pend.isSome || decide ((s.ctx c).parked ≠ .no))
          | none => false)

/-- Whether an engine may issue the instruction it stands at: its task runs, and no mark it stands at holds it. -/
def State.engineReady (s : State) (a : AgentId) : Bool :=
  let x := s.stream a
  s.coreRuns a.coreId && s.running a.ctx && !(x.atMark && s.heldAtMark a)

/-- What an agent does on its turn: an instruction it fetches, or its engine's next event. -/
def State.nextOf (s : State) (a : AgentId) : Option Instr :=
  if a.kind = .scu then (if s.scuReady a.ctx then some (s.fetchScu a.ctx) else none)
  else
    let x := s.stream a
    if !s.coreRuns a.coreId then none
    else if !x.active then (if x.queue.isEmpty then none else some (.engineCommandStart a))
    else if x.atEnd then some (.progressMark a)
    else if s.engineReady a then some (s.fetchEngine a)
    else none

/-! ### Waiting instructions -/

/-- Whether an instruction is one of the waits on a vault word (03 R65, R68). -/
def Instr.vaultWait : Instr → Bool
  | .semwait .. | .semwdec .. | .mwait .. | .cwait .. | .xwait .. | .vwait .. | .pailw .. | .pailf .. | .xred .. => true
  | _ => false

/-! ### Current buckets at issue (17 R380) -/

/-- The balance of an agent's bucket. -/
def State.balance (s : State) (a : AgentId) : Int := ((s.core a.coreId).buckets.getD a.kind.num {}).bal

/-- The cost an outcome charged an agent's bucket, in units. -/
def costOf (a : AgentId) (before : State) (after : State) : Nat := ((before.balance a - after.balance a) / 16).toNat

/-- Whether the bucket of an engine holds another slot's instruction that was selected before. -/
def State.heldByOther (s : State) (a : AgentId) : Bool :=
  (s.core a.coreId).bucketHeld.any (fun h =>
    h.1 == a.kind.num && h.2 != a.slot && (s.stream { a with slot := h.2 }).active && s.running { a with slot := h.2 }.ctx)

/-- Notes or withdraws the slot of an engine that its bucket holds. -/
def State.holdSlot (s : State) (a : AgentId) (held : Bool) : State :=
  if (s.core a.coreId).bucketHeld.isEmpty ∧ !held then s
  else
    s.modCore a.coreId (fun k =>
      let l := k.bucketHeld.filter (fun h => h.1 != a.kind.num)
      { k with bucketHeld := if held ∧ a.kind ≠ .scu then l ++ [(a.kind.num, a.slot)] else l })

/-- An outcome stands unless the agent's bucket holds what it cost. -/
def State.afford (s : State) (a : AgentId) (r : Res) : Res :=
  match r with
  | .next s' =>
    let x := costOf a s s'
    if 0 < x ∧ !s.affords a.coreId a.kind.num x then .next (s.holdSlot a true) else .next (s'.holdSlot a false)
  | r => r

/-- A pair as software sees it. -/
def Curator.hart (q : Curator) (i : Nat) : Hart := q.harts.getD i {}

/-- Whether the active pair runs at supervisor or machine level (13 R269, R274). -/
def Curator.atSupervisor (q : Curator) : Bool :=
  (List.range 4).any (fun i => q.pairs.getD i .stopped == .active && (q.hart i).level != .u)

/-- Whether some pair that runs is at machine level. -/
def Curator.atMonitor (q : Curator) : Bool :=
  (List.range 4).any (fun i => q.pairs.getD i .stopped != .stopped && q.pairs.getD i .stopped != .held && (q.hart i).level == .m)

/-- Whether an active supervisor runs (13 R276-R277), at the level that reaches the registers of Curator S (13 R269). -/
def State.supervised (s : State) : Bool := !s.cur.takeover && decide (s.mode = .running) && s.cur.atSupervisor

/-- Whether the monitor runs: also during a takeover (13 R277). -/
def State.monitored (s : State) : Bool := decide (s.mode = .running) && s.cur.atMonitor

/-- A write that Curator S makes: none is made while no supervisor is active. -/
def State.bySupervisor (s : State) (f : State → State) : Res := .next (if s.supervised then f s else s)

/-- A write that only Curator M makes (13 R269). -/
def State.byMonitor (s : State) (f : State → State) : Res := .next (if s.monitored then f s else s)

end Sys2Proof.Machine
end

