-- ==== Sys2Proof/Machine/Time.lean ====
section
/-! DEFINITION. What passes with time (log entry 4): the cycle count, the current buckets (17 R378), the watchdog counts in cycles of their
units (16 R347), power steps (17 R372-R375) and the measurements of power and charge (17 R370). -/

namespace Sys2Proof.Machine

/-! ### Buckets and watchdogs -/

/-- A bucket after `dt` reference cycles. -/
def Bucket.refill (b : Bucket) (dt : Nat) : Bucket :=
  { b with bal := max b.bal (min ((b.cap : Int) * 16) (b.bal + b.rate * dt)) }

/-- A bucket after a write: a RATE of 0 is ignored, and a CAP below BAL lowers BAL (17 R378). -/
def Bucket.write (b : Bucket) (v : Word) : Bucket :=
  let cap := wfld v 0 16
  let rate := wfld v 16 12
  ⟨min b.bal ((cap : Int) * 16), if rate = 0 then b.rate else rate, cap⟩

/-- The buckets of a core after `dt` reference cycles, 1 or more: its writes act at the first. -/
def Core.refill (k : Core) (dt : Nat) : Vector Bucket 5 :=
  tabulate 5 (fun i =>
    let b := k.buckets.getD i {}
    match k.bucketNew.filter (fun e => e.1 == i) with
    | [] => b.refill dt
    | l => (l.foldl (fun b e => b.write e.2) (b.refill 1)).refill (dt - 1))

/-- The slots of an engine with a current command. -/
def State.liveSlots (s : State) (c : CoreId) (k : AgentKind) : List CtxId := c.slots.filter (fun d => (s.stream (d.agent k)).active)

/-- Whether a cycle counts towards an engine's watchdog: some slot has a current command, not every such slot is parked, frozen or
pre-empted, and the ladder does not hold the engine at a mark (16 R347). -/
def State.watched (s : State) (c : CoreId) (k : AgentKind) : Bool :=
  let live := s.liveSlots c k
  let idle (d : CtxId) : Bool :=
    s.behindWalk (d.agent k) || (match s.task d with | some t => t.frozen || t.preempted | none => true)
  !live.isEmpty && !live.all idle
    && !(decide (7 ≤ s.depthOf c.die) && live.all (fun d => idle d || (s.stream (d.agent k)).atMark))

/-- The cycles an engine has had by a reference cycle: of a VE's slots the fastest counts. -/
def State.engineCycles (s : State) (c : CoreId) (k : AgentKind) (now : Nat) : Nat :=
  ((s.liveSlots c k).map (fun d => (s.core c).slotCycles k d.ctx now)).foldl max 0

/-- The buckets, watchdog counts and array of a core after `dt` reference cycles: rows stream in the cycles that the ladder leaves the ME, its steps
4 and 5 acting at once (17 R376). -/
def State.tickCore (s : State) (c : CoreId) (dt : Nat) : State :=
  let more (i : Nat) : Nat :=
    if s.watched c (engineKind i) then s.engineCycles c (engineKind i) (s.cycle + dt) - s.engineCycles c (engineKind i) s.cycle else 0
  s.modCore c (fun k =>
    { k with buckets := k.refill dt, bucketNew := [], wd := tabulate 4 (fun i => k.wd.getD i 0 + more i),
             arrayLeft := k.arrayLeft - dutyCount (s.depthOf c.die) (k.unitCycles 2 s.cycle) (k.unitCycles 2 (s.cycle + dt)) })

/-- The watchdog count of a context after `dt` reference cycles: SCU cycles with a blocking instruction outstanding (06 R133). -/
def State.tickCtx (s : State) (c : CtxId) (x : Ctx) (dt : Nat) : Ctx :=
  let k := s.core c.coreId
  if x.blocked ∧ c.ctx < 4 then { x with wd := x.wd + (k.unitCycles 0 (s.cycle + dt) - k.unitCycles 0 s.cycle) } else x

/-- The first multiple of a period, counted from a base, at or after a number. -/
def nextMultiple (base period n : Nat) : Nat := if n ≤ base then base else base + (n - base + period - 1) / period * period

/-- The first reference cycle from `t` on in which the unit of an agent has a cycle to issue in: one in every `d` for its divisor d, one issue in
each (17 R377), and for the ME one that the ladder leaves it (17 R376). -/
def State.freeCycle (s : State) (a : AgentId) (t : Nat) : Nat :=
  let k := s.core a.coreId
  let b := k.unitBase.getD a.kind.num (0, 0)
  let d := k.divisorOf a.kind a.slot
  let c := nextMultiple b.2 d (max t (k.nextIssue.getD a.kind.num 0))
  let every := if 5 ≤ s.depthOf a.die then 4 else if 4 ≤ s.depthOf a.die then 2 else 1
  if a.kind = .me then b.2 + (nextMultiple 0 every (b.1 + (c - b.2) / d) - b.1) * d else c

/-! ### Power steps (17 R371-R375) -/

/-- The reference cycles of some microseconds. -/
def micros (n : Nat) : Nat := n * 2400

/-- The cap of a granted level, in W (17 R371). -/
def levelCap (l : Nat) : Nat := 800 * (l + 1)

/-- The granted level: the least request, a disabled source counting as 7 (17 R372). -/
def Power.granted (p : Power) : Nat :=
  min (if p.pinen then p.pinreq else 7) (min (if p.faben then p.fabreq else 7) p.fwreq)

/-- Pair C sets the depth in place of the ladder's rules: DUTY bit 4 as the last step found it, and a supervisor active (13 R277, R290,
17 R375; log entry 28). -/
def State.assistedPower (s : State) : Bool := s.power.assisted && !s.cur.takeover

/-- Marks every core pending for the slots that hold a task (17 R375). -/
def State.markPending (s : State) : State :=
  let s : State := { s with cores := s.cores.map (fun e => (e.1, { e.2 with pendingStep := [] })) }
  s.tasks.foldl (fun s e => if e.2.isSome then s.modCore e.1.coreId (fun k => { k with pendingStep := k.pendingStep ++ [e.1.ctx] }) else s) s

/-- Carries out the step of a cycle whose requests have changed the level (17 R372-R373; log entry 29). -/
def State.settlePower (s : State) : State :=
  let p := s.power
  if p.level = p.settled then s
  else
    let down := decide (p.level < p.settled)
    let s : State := { s with power := { p with was := p.settled, steps := p.steps + 1, settled := p.level, assisted := s.duty.testBit 4,
                                                heldSince := if down then some s.cycle else p.heldSince, overSince := none, underSince := none } }
    let p := s.power
    let m := p.map.getD p.level 0
    let p : Power := if s.assistedPower then p else { p with depth := if down then max p.depth m else min p.depth m }
    let s : State := { s with power := if down then { p with stepAt := some s.cycle, downAt := some s.cycle } else p }
    if down then s.markPending else s

/-! ### Measurements -/

/-- The update of PMEAS at a sample: a measured and so free value, which lies below the cap where it stands at 1 ms after the last step down or
later (17 R371, R374); and since when it has exceeded the cap or stayed below 95 % of it. -/
def State.measurePower (s : State) (now : Nat) : State :=
  let p := s.power
  let cap := levelCap p.settled
  let bound := match p.heldSince with | some d => decide (d + micros 1000 < now + micros 10) | none => false
  let w := (Config.freeWord s.freeCtr).toNat % (if bound then cap else 2 ^ 32)
  let above := if cap < w then some (p.overSince.getD now) else none
  let below := if w * 100 < cap * 95 then some (p.underSince.getD now) else none
  { s.tick with power := { p with pmeas := w, overSince := above, underSince := below } }

/-- The update of CHARGE at a sample, a measured and so free value. -/
def State.measureCharge (s : State) : State :=
  { s.tick with power := { s.power with charge := (Config.freeWord s.freeCtr).toNat % 2 ^ 32 } }

/-- The multiples of a period after `since` and up to `now`. -/
def ticksOf (period since now : Nat) : List Nat := (rangeFrom (since / period + 1) (now / period - since / period)).map (fun i => i * period)

/-- The measurements due since a cycle: PMEAS every 10 µs, CHARGE every 1 ms. -/
def State.measure (s : State) (since : Nat) : State :=
  (ticksOf (micros 1000) since s.cycle).foldl (fun s _ => s.measureCharge) ((ticksOf (micros 10) since s.cycle).foldl State.measurePower s)

/-! ### The passing of time -/

/-- The cores that time changes: those that are not as after reset, and those with a stream. -/
def State.activeCores (s : State) : List CoreId := (Table.keys s.cores ++ (Table.keys s.streams).map AgentId.coreId).eraseDups

/-- Lets `dt` reference cycles pass. -/
def State.elapse (s : State) (dt : Nat) : State :=
  if dt = 0 then s
  else
    let s := s.settlePower
    let u : State := { s with ctxs := s.ctxs.map (fun e => (e.1, s.tickCtx e.1 e.2 dt)) }
    let u := s.activeCores.foldl (fun (u : State) c => u.tickCore c dt) u
    ({ u with cycle := s.cycle + dt } : State).measure s.cycle

end Sys2Proof.Machine
end

