-- ==== Sys2Proof/Machine/Admissions.lean ====
section
/-! DEFINITION. Admissions: queues, the notify, packets with their fetch window, and the choice of a queue (14 R291-R307). -/

namespace Sys2Proof.Machine

/-! ### Packet points (14 R295) -/

/-- The admissions-memory byte address of a point of queue `q`. -/
def ExecPoint.byteAddr (p : ExecPoint) (q : Nat) : Nat := if p.inRing then q * 4096 + p.addr % 1024 * 4 else p.addr

/-- The point `n` words further. -/
def ExecPoint.past (p : ExecPoint) (n : Nat) : ExecPoint :=
  if p.inRing then { p with addr := (p.addr + n) % 2 ^ 32 } else { p with addr := p.addr + 4 * n }

/-- The words a packet takes up, from its header; a packet whose type or length is in error takes its header only (log entry 18). -/
def packetWords (h : Nat) : Nat :=
  match packetLen (h % 256) with
  | some n => if fld h 16 16 = n then n else 1
  | none => if h % 256 = 12 ∧ 1 ≤ fld h 16 16 ∧ fld h 16 16 ≤ 1024 then fld h 16 16 else 1

/-- The words of a packet that are read: a QNOP's header only (14 R302). -/
def readWords (h : Nat) : Nat := if h % 256 = 12 then 1 else packetWords h

/-- What stands at a point: nothing published yet, the end of a buffer, or a packet's words, none of them when one is uncorrectable. -/
inductive Peek where
  | unpublished
  | finish
  | words (ws : List Nat)

/-- Reads the packet at a point of a queue. -/
def State.peek (s : State) (q : Nat) (p : ExecPoint) : Peek :=
  let word (i : Nat) : Nat := s.rdNat (admAt ((p.past i).byteAddr q)) 4
  let read (n : Nat) : Peek :=
    let as := ((List.range n).map (fun i => rangeFrom (admAt ((p.past i).byteAddr q)) 4)).flatten
    .words (if (s.eccHit as).isSome then [] else (List.range n).map word)
  if p.inRing then
    let have_ := ((s.queue q).tail.toNat + 2 ^ 32 - p.addr) % 2 ^ 32
    if have_ = 0 then .unpublished else if have_ < packetWords (word 0) then .unpublished else read (readWords (word 0))
  else if p.stop ≤ p.addr then .finish
  else if p.stop < p.addr + 4 * packetWords (word 0) then read 1
  else read (readWords (word 0))

/-! ### Predicted order and the fetch window (14 R296) -/

/-- Where a queue executes: the point, the return points of its calls, and its loops, those of the current depth first. -/
structure Walk where
  point : ExecPoint
  calls : List ExecPoint
  loops : List (List (ExecPoint × Nat))

/-- Where a queue executes now. -/
def Queue.walk (x : Queue) : Walk := ⟨x.point, x.calls, x.loops⟩

/-- The return from a buffer. -/
def Walk.ret (w : Walk) : Option Walk :=
  match w.calls with
  | [] => none
  | r :: t => some ⟨r, t, w.loops.drop 1⟩

/-- The loops of the current depth. -/
def Walk.open_ (w : Walk) : List (ExecPoint × Nat) := w.loops.headD []

/-- Where a packet in program order leads, QPRED's skip not applied; none when it is in error. -/
def Walk.after (w : Walk) (ws : List Nat) : Option Walk :=
  let next : ExecPoint := w.point.past (packetWords (pw ws 0))
  match decodePacket ws with
  | .error _ => none
  | .ok i =>
    match i with
    | .qcall a l => if 4 ≤ w.calls.length then none else some ⟨⟨false, a, a + 4 * l⟩, next :: w.calls, [] :: w.loops⟩
    | .qjump a l => if w.calls.isEmpty || !w.open_.isEmpty then none else some { w with point := ⟨false, a, a + 4 * l⟩ }
    | .qret => if w.open_.isEmpty then w.ret else none
    | .qloop n => if 4 ≤ w.open_.length then none else some ⟨next, w.calls, ((next, n) :: w.open_) :: w.loops.drop 1⟩
    | .qlend =>
      match w.open_ with
      | [] => none
      | (b, n) :: t =>
        if 1 < n then some ⟨b, w.calls, ((b, n - 1) :: t) :: w.loops.drop 1⟩ else some ⟨next, w.calls, t :: w.loops.drop 1⟩
    | _ => some { w with point := next }

/-- Leaves the buffers whose end is reached. -/
def State.leaveEnds (s : State) (q : Nat) : Nat → Walk → Walk
  | 0, w => w
  | n + 1, w =>
    match s.peek q w.point with
    | .finish =>
      match w.ret with
      | some w' => if w.open_.isEmpty then s.leaveEnds q n w' else w
      | none => w
    | _ => w

/-- Copies up to `n` packets in predicted order; those already copied keep their bytes. -/
def State.copyAhead (s : State) (q : Nat) : Nat → Option Walk → List (ExecPoint × List Nat) → List (ExecPoint × List Nat)
  | 0, _, _ => []
  | _ + 1, none, _ => []
  | n + 1, some w, old =>
    let w := s.leaveEnds q 5 w
    match old with
    | (p, ws) :: t =>
      if p = w.point then (p, ws) :: s.copyAhead q n (w.after ws) t
      else
        match s.peek q w.point with
        | .words ws => (w.point, ws) :: s.copyAhead q n (w.after ws) []
        | _ => []
    | [] =>
      match s.peek q w.point with
      | .words ws => (w.point, ws) :: s.copyAhead q n (w.after ws) []
      | _ => []

/-- The entries of a window from a point on. -/
def fromPoint (p : ExecPoint) (l : List (ExecPoint × List Nat)) : List (ExecPoint × List Nat) := l.dropWhile (fun e => e.1 != p)

/-- Copies the window of a queue whose executing packet has the given words, and keeps its copy of that packet. -/
def State.fillWindow (s : State) (q : Nat) (ws : List Nat) : State :=
  s.modQueue q (fun x =>
    let old := match x.window with | (p, _) :: t => if p = x.point then t else x.window | [] => []
    { x with copied := some (x.point, ws), window := s.copyAhead q 8 (x.walk.after ws) old })

/-- The words of the packet a queue executes next: those copied, else those in memory now. -/
def State.currentPacket (s : State) (q : Nat) : Peek :=
  let x := s.queue q
  match (x.copied.toList ++ x.window.take 1).find? (fun e => e.1 == x.point) with
  | some e => .words e.2
  | none => s.peek q x.point

/-- The packet a queue executes next, as an instruction: an illegal one by its error code (14 R297); none while it is unpublished. -/
def State.fetchPacket (s : State) (q : Nat) : Option Instr :=
  let x := s.queue q
  match s.currentPacket q with
  | .unpublished => none
  | .finish => some .qret
  | .words [] => some (.illegalPacket 0x08)
  | .words (h :: t) =>
    if !x.point.inRing && decide (x.point.stop < x.point.addr + 4 * packetWords h) then some (.illegalPacket 0x02)
    else
      match decodePacket (h :: t) with
      | .ok i => some i
      | .error (.packet c) => some (.illegalPacket c)
      | .error _ => some (.illegalPacket 0x01)

/-! ### Tickets and PASS (14 R305-R307) -/

/-- Whether a queue is blocked on QWAIT, and on whose signal. -/
def Queue.signaller (x : Queue) : Option Nat :=
  match x.wait with
  | .sem _ _ _ g => if x.state = 1 then some g else none
  | _ => none

/-- The queue a chain of at most `n` hops reaches. -/
def State.chain (s : State) (start : Nat) : Nat → Nat → List Nat → Option Nat
  | 0, _, _ => none
  | n + 1, q, seen =>
    if q = start ∨ seen.contains q then none
    else
      match (s.queue q).signaller with
      | some g => s.chain start n g (q :: seen)
      | none => if (s.queue q).state = 1 then some q else none

/-- The queue a blocked queue lends its tickets to (LV and LEND of R291). -/
def State.lends (s : State) (q : Nat) : Option Nat :=
  match (s.queue q).signaller with
  | some g => s.chain q 4 g []
  | none => none

/-- Tickets(q): its own and what is lent to it. -/
def State.ticketsOf (s : State) (q : Nat) : Nat :=
  (s.queue q).tickets + (((Table.keys s.queues).filter (fun l => s.lends l == some q)).map (fun l => (s.queue l).tickets)).foldl (· + ·) 0

/-- Charge (14 R306). -/
def State.chargeQueue (s : State) (q w : Nat) : State :=
  let t := s.ticketsOf q
  s.modQueue q (fun x => { x with pass := (x.pass + 2 ^ 20 / t * w) % 2 ^ 64 })

/-- Whether a Registrar holds its answer to a queue's offer while its read is parked (14 R308). -/
def Queue.heldOffer (x : Queue) : Bool :=
  match x.offer with
  | some o => o.answers.any (fun e => e.2 == .held)
  | none => false

/-- Whether a queue is runnable (14 R305); with its offer out it is, unless an answer is held (14 R308). -/
def State.isRunnable (s : State) (q : Nat) : Bool :=
  let x := s.queue q
  x.state == 1 && (x.wait == .no || (x.wait == .offer && !x.heldOffer)) && (s.fetchPacket q).isSome

/-- Wake: a queue that becomes runnable takes at least the least PASS of its pool. -/
def State.wakeQueue (s : State) (q : Nat) : State :=
  let x := s.queue q
  let pool := (Table.keys s.queues).filter (fun p => p != q && (s.queue p).runnable && (s.queue p).urgent == x.urgent)
  match pool with
  | [] => s
  | p :: t => s.setQueue q { x with pass := max x.pass (t.foldl (fun m r => min m (s.queue r).pass) (s.queue p).pass) }

/-- Notes which queues are runnable: those that have become so wake, in the order of their numbers, while those that stop being so still count
(log entry 90). -/
def State.rewake (s : State) : State :=
  let wake (s : State) (q : Nat) : State :=
    if s.isRunnable q && !(s.queue q).runnable then (s.wakeQueue q).modQueue q (fun x => { x with runnable := true }) else s
  let s := (Table.keys s.queues).foldl wake s
  (Table.keys s.queues).foldl (fun s q => let r := s.isRunnable q; s.modQueue q (fun x => { x with runnable := r })) s

/-! ### HEAD and DONE (14 R295, R310) -/

/-- DONE moves past the packets at its front whose launches have all completed, no further than `room` words from where it stands. -/
def drainDone (room : BitVec 32 → Nat) : BitVec 32 → List (Nat × List Nat × Bool) → BitVec 32 × List (Nat × List Nat × Bool)
  | d, [] => (d, [])
  | d, (c, l, f) :: t =>
    if l.isEmpty && !f && decide ((BitVec.ofNat 32 c - d).toNat ≤ room d) then drainDone room (BitVec.ofNat 32 c) t else (d, (c, l, f) :: t)

/-- The start of the outermost open loop of the ring, as a count. -/
def Queue.ringLoop (x : Queue) : Option Nat := ((x.loops.getLast?.getD []).getLast?).map (fun e => e.1.addr)

/-- DONE advances as far as it may: not past HEAD, nor past the start of an open loop of the ring, whose packets are yet to execute again
(log entry 19). -/
def Queue.drain (x : Queue) : Queue :=
  let room (d : BitVec 32) : Nat :=
    min (x.head - d).toNat (match x.ringLoop with | some b => (BitVec.ofNat 32 b - d).toNat | none => 2 ^ 32)
  let r := drainDone room x.done x.pendingDone
  { x with done := r.1, pendingDone := r.2 }

/-- Enters the end of an executed ring packet among those that DONE has still to pass, in ring order, whatever order a loop of the ring executed
them in (14 R310). -/
def insertDone (d : BitVec 32) (e : Nat × List Nat × Bool) : List (Nat × List Nat × Bool) → List (Nat × List Nat × Bool)
  | [] => [e]
  | y :: t => if (BitVec.ofNat 32 e.1 - d).toNat < (BitVec.ofNat 32 y.1 - d).toNat then e :: y :: t else y :: insertDone d e t

/-- A ring packet that ends at a count has executed: its launches join those of its earlier executions. -/
def Queue.passed (x : Queue) (c : Nat) : Queue :=
  if x.pendingDone.any (fun e => e.1 == c) then
    { x with pendingDone := x.pendingDone.map (fun e => if e.1 = c then (c, e.2.1 ++ x.curLaunches, e.2.2) else e), curLaunches := [] }
  else if BitVec.ofNat 32 c = x.done then x
  else { x with pendingDone := insertDone x.done (c, x.curLaunches, false) x.pendingDone, curLaunches := [] }

/-- Whether a point is the end of a buffer, where no packet stands: the packets of the window follow it. -/
def ExecPoint.atEnd (p : ExecPoint) : Bool := !p.inRing && decide (p.stop ≤ p.addr)

/-- A queue arrives at its next point: in the ring HEAD follows, and the packet passed waits for its launches before DONE follows too. A
loop of the ring takes HEAD back to its start. -/
def Queue.arrive (x : Queue) : Queue :=
  let x := { x with copied := none, window := if x.point.atEnd then x.window else fromPoint x.point x.window }
  if x.calls.isEmpty then { x.passed x.point.addr with head := BitVec.ofNat 32 x.point.addr }.drain else x

/-- Moves a queue to where a walk stands. -/
def Queue.at_ (x : Queue) (w : Walk) : Queue := { x with point := w.point, calls := w.calls, loops := w.loops }

/-! ### Errors and states (14 R292) -/

/-- The pseudo-agent under which a queue's QWAIT waits for a package-vault word. -/
def queueAgent (q : Nat) : AgentId := ⟨16, q, 4, .scu⟩

/-- Ends the turn of a queue. -/
def State.endTurn (s : State) (q : Nat) : State :=
  match s.turnOf with
  | some (p, _) => if p = q then { s with turnOf := none } else s
  | none => s

/-- Sets the ERRMAP bit of a queue. -/
def State.mapError (s : State) (q : Nat) : State := { s with errmap := if s.errmap.contains q then s.errmap else s.errmap ++ [q] }

/-- A queue becomes OFF. -/
def State.queueOff (s : State) (q : Nat) : State :=
  let s := (s.dropWaiter (queueAgent q)).endTurn q
  (s.modQueue q (fun x =>
    { x with state := 0, copied := none, window := [], wait := .no, skip := 0, offPending := false, runnable := false })).rewake

/-- A queue enters ERROR, and becomes OFF when that was asked for. -/
def State.queueError (s : State) (q code epos : Nat) : State :=
  let off := (s.queue q).offPending
  let s := ((s.dropWaiter (queueAgent q)).endTurn q).mapError q
  let s := ((s.modQueue q (fun x =>
    { x with state := 2, reason := code, epos := epos, copied := none, window := [], wait := .no, offer := none, skip := 0, runnable := false,
             stopFor := none })).send (.irqAdmissions q)).rewake
  if off then s.queueOff q else s

/-- A packet boundary: what is pending takes effect (14 R292). -/
def State.boundary (s : State) (q : Nat) : State :=
  let x := s.queue q
  match x.stopFor with
  | some e => if x.state = 1 then s.queueError q 0x40 e else s
  | none => if x.offPending then s.queueOff q else s

/-- Any write of STATE empties the fetch window; the copy of the executing packet is no part of it (14 R296). -/
def State.emptyWindow (s : State) (q : Nat) : State := s.modQueue q (fun x => { x with window := [] })

/-- STATE = 1: a queue that is not RUN, with consistent counts, becomes so, and its PASS is set by the wake rule (14 R292, R306). -/
def State.queueRun (s : State) (q : Nat) : State :=
  let x := s.queue q
  let ok := decide ((x.head - x.done).toNat ≤ (x.tail - x.done).toNat) && decide ((x.tail - x.done).toNat ≤ 1024)
  if x.state = 1 ∨ !ok then s.emptyWindow q
  else
    ((s.setQueue q { x with state := 1, reason := 0, calls := [], loops := [[]], copied := none, window := [], skip := 0, wait := .no,
                            offPending := false, stopFor := none, point := ⟨true, x.head.toNat, 0⟩, runnable := false }).wakeQueue q).rewake

/-- STATE = 0: the queue becomes OFF at the next packet boundary; an offer under way ends first (14 R292). -/
def State.queueStop (s : State) (q : Nat) : State :=
  let s := s.emptyWindow q
  let x := s.queue q
  if x.state = 0 then s
  else if x.offer.isSome then s.setQueue q { x with offPending := true }
  else s.queueOff q

def execQueueSetRun (q : Nat) (s : State) : Res := s.bySupervisor (fun s => s.queueRun q)
def execQueueSetOff (q : Nat) (s : State) : Res := s.bySupervisor (fun s => s.queueStop q)

/-- A write of HEAD (0), TAIL (1) or DONE (2), accepted only while OFF or ERROR (14 R292). -/
def State.writeCount (s : State) (q which : Nat) (v : BitVec 32) : State :=
  let x := s.queue q
  if x.state = 1 then s
  else
    match which with
    | 0 => s.setQueue q { x with head := v }
    | 1 => s.setQueue q { x with tail := v }
    | _ =>
      let ahead (e : Nat × List Nat × Bool) : Bool :=
        let d := (BitVec.ofNat 32 e.1 - v).toNat
        decide (d ≠ 0) && decide (d < 2 ^ 31)
      s.setQueue q { x with done := v, pendingDone := x.pendingDone.filter ahead }

def execQueueCountsWrite (q which : Nat) (v : BitVec 32) (s : State) : Res := s.bySupervisor (fun s => s.writeCount q which v)

/-- QUAR = 0 lifts a quarantine, and the count of failures starts again (log entry 89). -/
def State.liftQuarantine (s : State) (q : Nat) : State := s.modQueue q (fun x => if x.quar then { x with quar := false, failrun := 0 } else x)

def execQuarClear (q : Nat) (s : State) : Res := s.bySupervisor (fun s => s.liftQuarantine q)

/-- A 1 written to an ERRMAP bit clears it. -/
def State.clearError (s : State) (q : Nat) : State := { s with errmap := s.errmap.filter (fun p => p != q) }

def execErrmapClear (q : Nat) (s : State) : Res := s.bySupervisor (fun s => s.clearError q)

/-! ### Notify (14 R293-R294) -/

/-- The key of a queue's notifies. -/
def State.notifyKey (s : State) (q : Nat) : BitVec 256 := s.key256 (0x4100010000 + q * 0x20)

/-- The tag of a work-queue notify. -/
def workTag (key : BitVec 256) (q tail : Nat) (nonce : Word) : Word :=
  gmac key (beBytes 8 nonce.toNat ++ beBytes 4 q) (natLe 4 q ++ natLe 4 tail ++ natLe 8 nonce.toNat)

/-- One dropped notify more. -/
def Queue.fail (x : Queue) : Queue := { x with fails := min (x.fails + 1) 0xFFFFFFFF }

/-- NOTIFY, judged step by step; with DUTY bit 7 the Curator's firmware applies the same steps (log entry 20), and
waits while no supervisor is active (13 R277). -/
def execNotify (q tail : Nat) (nonce tag : Word) (reserved : Bool) (s : State) : Res :=
  let x := s.queue q
  let t := BitVec.ofNat 32 tail
  if s.duty.testBit 7 && s.cur.takeover then .next s
  else if reserved || x.state == 0 || x.quar then .next (s.setQueue q x.fail)
  else if tag ≠ workTag (s.notifyKey q) q tail nonce ∨ nonce.toNat ≤ x.nonce.toNat then
    let y : Queue := { x.fail with failrun := x.failrun + 1 }
    if 16 ≤ y.failrun then .next ((s.setQueue q { y with quar := true, reason := 0x30 }).mapError q)
    else .next (s.setQueue q y)
  else
    let y : Queue := { x with nonce := nonce, failrun := 0 }
    if x.state = 2 then .next (s.setQueue q y)
    else if 2 ^ 31 ≤ (t - x.tail).toNat ∨ 1024 < (t - x.done).toNat then
      .next ((s.setQueue q y).queueError q 0x20 ((⟨true, x.head.toNat, 0⟩ : ExecPoint).byteAddr q))
    else .next ((s.setQueue q { y with tail := t }).rewake)

/-! ### Executing packets (14 R297-R303) -/

/-- What a packet comes to: the queue goes on from a walk, has left a buffer at its end, stays and is not runnable, has made an offer, or is in error. -/
inductive PkOut where
  | go (w : Walk) (s : State)
  | ended (w : Walk) (s : State)
  | skipped (n : Nat) (s : State)
  | wait (w : QWaitSt) (s : State)
  | offered (s : State)
  | error (code : Nat) (s : State)

/-- Whether launches of a queue are outstanding. -/
def State.outstanding (s : State) (q : Nat) : Bool := s.launches.any (fun l => l.q.queue == q)

/-- The judgement of a QWAIT on its word: none while it waits. -/
def State.waitWord (s : State) (h n : Nat) (dec : Bool) (q : Nat) : Except Unit (Option State) :=
  let key := pkgWord (h % 2 ^ 16)
  let w := s.word key
  if s.vaultBad.contains key then .ok (some (s.vaultFailure key))
  else if semMode w ≠ 0 then .error ()
  else if dec then
    match semWdec w (signed 32 n) with
    | .error _ => .error ()
    | .ok none => .ok none
    | .ok (some w') => if s.firstWaiter key (queueAgent q) then .ok (some ((s.setWord key w').dropWaiter (queueAgent q))) else .ok none
  else
    match semWait w (signed 32 n) with
    | .error _ => .error ()
    | .ok true => .ok (some s)
    | .ok false => .ok none

/-- A queue moves on past a packet of `n` words. -/
def Queue.beyond (x : Queue) (n : Nat) : Walk := { x.walk with point := x.point.past n }

/-- Ends the waits that are satisfied: those on package-vault words and those for earlier launches. -/
def State.pollQueues (s : State) : State :=
  (Table.keys s.queues).foldl (fun s q =>
    let x := s.queue q
    match x.wait with
    | .sem h n dec _ =>
      match s.waitWord h n dec q with
      | .error _ => s.queueError q 0x03 (x.point.byteAddr q)
      | .ok none => s
      | .ok (some s') => s'.modQueue q (fun x => ({ x.at_ (x.beyond 4) with wait := .no }).arrive)
    | .after => if s.outstanding q then s else s.modQueue q (fun x => { x with wait := .no })
    | _ => s) s

/-- Skips packets at the current depth as far as they are published: what is left to skip, and where (14 R300). -/
def State.skipAhead (s : State) (q : Nat) : Nat → ExecPoint → List (ExecPoint × List Nat) → Nat × ExecPoint
  | 0, p, _ => (0, p)
  | n + 1, p, win =>
    let win := fromPoint p win
    let here : Peek := match win with | (_, ws) :: _ => .words ws | [] => s.peek q p
    match here with
    | .unpublished => (n + 1, p)
    | .finish => (0, p)
    | .words ws => s.skipAhead q n (p.past (packetWords (pw ws 0))) win

/-- Skips what a queue still has to skip. -/
def State.resumeSkip (s : State) (q : Nat) : State :=
  let x := s.queue q
  if x.skip = 0 then s
  else
    let r := s.skipAhead q x.skip x.point x.window
    s.setQueue q ({ x with skip := r.1, point := r.2 }.arrive)

/-- Once `n` packets of a turn have executed: it ends when the queue stops being runnable or with the 64th (14 R305). -/
def State.packetDone (s : State) (q n : Nat) : State :=
  let s := ((s.boundary q).pollQueues).rewake
  if s.turnOf.isNone then s
  else if 64 ≤ n then (s.chargeQueue q 1).endTurn q
  else if s.isRunnable q then { s with turnOf := some (q, n) }
  else s.endTurn q

/-- Acts on what a packet came to. -/
def PkOut.settle (o : PkOut) (q n : Nat) : Res :=
  match o with
  | .go w s => .next ((s.modQueue q (fun x => (x.at_ w).arrive)).packetDone q (n + 1))
  | .ended w s => .next ((s.modQueue q (fun x => (x.at_ w).arrive)).packetDone q n)
  | .skipped k s => .next ((s.modQueue q (fun x => { x.at_ (x.beyond 4) with skip := k })).resumeSkip q |>.packetDone q (n + 1))
  | .wait w s => .next (((s.modQueue q (fun x => { x with wait := w, runnable := false })).endTurn q).rewake)
  | .offered s => .next s
  | .error code s => .next (s.queueError q code ((s.queue q).point.byteAddr q))

/-- Runs a packet of the queue whose turn it is, after its window is copied. -/
def State.packet (s : State) (i : Instr) (f : Nat → Queue → State → PkOut) : Res :=
  match s.turnOf with
  | none => .next s
  | some (q, n) => (f q ((s.fillWindow q (encodePacket i)).queue q) (s.fillWindow q (encodePacket i))).settle q n

def execIllegalPacket (code : Nat) (s : State) : Res := s.packet (.illegalPacket code) (fun _ _ s => .error code s)

def execQcall (a l : Nat) (s : State) : Res :=
  s.packet (.qcall a l) (fun _ x s =>
    if 4 ≤ x.calls.length then .error 0x04 s
    else .go ⟨⟨false, a, a + 4 * l⟩, x.point.past 3 :: x.calls, [] :: x.loops⟩ s)

def execQret (s : State) : Res :=
  s.packet .qret (fun _ x s =>
    match x.walk.ret with
    | none => .error 0x05 s
    | some w =>
      if !x.walk.open_.isEmpty then .error 0x06 s
      else if !x.point.inRing && decide (x.point.stop ≤ x.point.addr) then .ended w s
      else .go w s)

def execQjump (a l : Nat) (s : State) : Res :=
  s.packet (.qjump a l) (fun _ x s =>
    if x.calls.isEmpty then .error 0x05 s
    else if !x.walk.open_.isEmpty then .error 0x06 s
    else .go { x.walk with point := ⟨false, a, a + 4 * l⟩ } s)

/-- The condition of a QPRED (14 R300). -/
def predCond (c w v : Nat) : Bool :=
  match c with
  | 0 => w == v
  | 1 => w != v
  | 2 => decide (signed 32 w < signed 32 v)
  | 3 => decide (signed 32 v ≤ signed 32 w)
  | 4 => decide (w < v)
  | _ => decide (v ≤ w)

def execQpred (c a v k : Nat) (s : State) : Res :=
  s.packet (.qpred c a v k) (fun _ x s =>
    if (s.eccHit (rangeFrom (admAt a) 4)).isSome then .error 0x08 s
    else if predCond c (s.rdNat (admAt a) 4) v then .go (x.beyond 4) s
    else .skipped k s)

def execQloop (n : Nat) (s : State) : Res :=
  s.packet (.qloop n) (fun _ x s =>
    if 4 ≤ x.walk.open_.length then .error 0x06 s
    else .go ⟨x.point.past 2, x.calls, ((x.point.past 2, n) :: x.walk.open_) :: x.loops.drop 1⟩ s)

def execQlend (s : State) : Res :=
  s.packet .qlend (fun _ x s =>
    match x.walk.open_ with
    | [] => .error 0x06 s
    | (b, n) :: t =>
      if 1 < n then .go ⟨b, x.calls, ((b, n - 1) :: t) :: x.loops.drop 1⟩ s
      else .go ⟨x.point.past 1, x.calls, t :: x.loops.drop 1⟩ s)

def execQwrite (a v : Nat) (s : State) : Res :=
  s.packet (.qwrite a v) (fun _ x s => .go (x.beyond 3) (s.storeAt (admAt a) (natLe 4 v)))

def execQfence (s : State) : Res :=
  s.packet .qfence (fun q x s => .go (x.beyond 1) (s.modQueue q (fun x => { x with window := [] })))

def execQnop (l : Nat) (s : State) : Res := s.packet (.qnop l) (fun _ x s => .go (x.beyond l) s)

/-- Whether a handle names a package-vault word (03 R63). -/
def pkgHandle (h : Nat) : Bool := h / 2 ^ 16 == 1

def execQsignal (after h n : Nat) (s : State) : Res :=
  s.packet (.qsignal after h n) (fun q x s =>
    if after = 1 ∧ s.outstanding q then .wait .after s
    else if !pkgHandle h then .error 0x03 s
    else
      let key := pkgWord (h % 2 ^ 16)
      if s.vaultBad.contains key then .go (x.beyond 3) (s.vaultFailure key)
      else if semMode (s.word key) ≠ 0 then .error 0x03 s
      else
        match semAdd (s.word key) (signed 32 n) with
        | .error _ => .error 0x03 s
        | .ok w => .go (x.beyond 3) (s.setWord key w))

def execQwait (dec h n g : Nat) (s : State) : Res :=
  s.packet (.qwait dec h n g) (fun q x s =>
    if !pkgHandle h then .error 0x03 s
    else
      match s.waitWord h n (dec == 1) q with
      | .error _ => .error 0x03 s
      | .ok (some s') => .go (x.beyond 4) s'
      | .ok none =>
        let s := if dec = 1 then s.enqueueWaiter (pkgWord (h % 2 ^ 16)) (queueAgent q) n else s
        .wait (.sem h n (dec == 1) g) s)

/-! ### Choosing a queue (14 R305-R306) -/

/-- The first of some queues by PASS, then by number. -/
def State.leastPass (s : State) : List Nat → Option Nat
  | [] => none
  | q :: t =>
    match s.leastPass t with
    | none => some q
    | some p =>
      if (s.queue p).pass < (s.queue q).pass ∨ ((s.queue p).pass = (s.queue q).pass ∧ p < q) then some p else some q

/-- CHOOSE: the runnable queue of least PASS takes a turn, urgent ones first; with DUTY bit 2 the Curator names one of them, a free
choice (log entry 21). -/
def execChoose (s : State) : Res :=
  if s.turnOf.isSome || (s.duty.testBit 2 && s.cur.takeover) then .next s
  else
    let s := ((Table.keys s.queues).foldl State.resumeSkip s.pollQueues).rewake
    let r := (Table.keys s.queues).filter s.isRunnable
    let u := r.filter (fun q => (s.queue q).urgent)
    if s.duty.testBit 2 then
      match r with
      | [] => .next s
      | _ => .next { s with turnOf := (r[(Config.freeWord s.freeCtr).toNat % r.length]?).map (fun q => (q, 0)), freeCtr := s.freeCtr + 1 }
    else .next { s with turnOf := (s.leastPass (if u.isEmpty then r else u)).map (fun q => (q, 0)) }

end Sys2Proof.Machine
end

