-- ==== Sys2Proof/Machine/Body.lean ====
section
/-! DEFINITION. Launch bodies: their tables and fields (14 R311-R315), the Registrar's checks (14 R316) and the distribution of the
points of a node over dies and cores (01 R17-R19, 14 R317-R318). -/

namespace Sys2Proof.Machine

/-! ### CRC-32 (14 R298) -/

/-- One bit of the reflected IEEE 802.3 polynomial. -/
def crcBit (c : BitVec 32) : BitVec 32 := if c.getLsbD 0 then (c >>> 1) ^^^ 0xEDB88320 else c >>> 1
/-- One byte. -/
def crcByte (c : BitVec 32) (b : Byte) : BitVec 32 := (List.range 8).foldl (fun c _ => crcBit c) (c ^^^ b.setWidth 32)
/-- The CRC-32 of some bytes. -/
def crc32 (l : List Byte) : BitVec 32 := ~~~(l.foldl crcByte (BitVec.allOnes 32))

/-! ### The header and the tables (14 R311) -/

/-- Counts and offsets of a body's header; `offs` in the order node, edge, operand, semaphore, pail, stream, relocation. -/
structure BodyHead where
  nn : Nat
  ne : Nat
  nsem : Nat
  npail : Nat
  nstream : Nat
  nreloc : Nat
  nops : Nat
  offs : List Nat
deriving DecidableEq, Repr

/-- The header of a body. -/
def bodyHead (b : List Byte) : BodyHead where
  nn := img b 0 2
  ne := img b 2 2
  nsem := img b 6 2
  npail := img b 8 2
  nstream := img b 0xA 1
  nreloc := img b 0xC 2
  nops := fld (img b 0x2C 4) 0 17
  offs := (List.range 7).map (fun i => img b (0x10 + 4 * i) 4)

/-- The size in bytes of an entry of each table. -/
def entrySizes : List Nat := [64, 4, 32, 16, 16, 16, 16]

/-- The extents of the tables: offset and size. -/
def BodyHead.spans (h : BodyHead) : List (Nat × Nat) :=
  h.offs.zip (List.zipWith (· * ·) [h.nn, h.ne, h.nops, h.nsem, h.npail, h.nstream, h.nreloc] entrySizes)

/-- Entry `i` of table `t`. -/
def BodyHead.entryOf (h : BodyHead) (b : List Byte) (t i : Nat) : List Byte :=
  (b.drop (h.offs.getD t 0 + entrySizes.getD t 0 * i)).take (entrySizes.getD t 0)
/-- Every entry of table `t`, of which there are `n`. -/
def BodyHead.table (h : BodyHead) (b : List Byte) (t n : Nat) : List (List Byte) := (List.range n).map (h.entryOf b t)

/-- Whether the extents of a list do not meet. -/
def apart : List (Nat × Nat) → Bool
  | [] => true
  | x :: t => t.all (fun y => x.2 == 0 || y.2 == 0 || decide (x.1 + x.2 ≤ y.1) || decide (y.1 + y.2 ≤ x.1)) && apart t

/-- Header counts, offsets and reserved bits (14 R311, code 0x12). -/
def headLegal (b : List Byte) : Bool :=
  let h := bodyHead b
  decide (1 ≤ h.nn) && decide (h.nn ≤ 4096) && decide (h.ne ≤ 16384) && decide (h.nsem ≤ 4096) && decide (h.npail ≤ 1024)
    && decide (h.nstream ≤ 64) && decide (h.nops ≤ 65536)
    && img b 4 2 == 0 && img b 0xB 1 == 0 && img b 0xE 2 == 0 && fld (img b 0x2C 4) 17 15 == 0 && img b 0x30 16 == 0
    && h.spans.all (fun x => x.1 % 16 == 0 && decide (x.1 + x.2 ≤ b.length))
    && apart ((0, 64) :: h.spans)

/-! ### Entries (14 R312, R314, R315) -/

/-- The level an entry word gives. -/
def levelOf (x : Nat) : Level := ⟨fld x 0 16 + 1, fld x 16 3, fld x 19 2, x.testBit 21⟩

/-- A node entry. -/
def nodeOf (e : List Byte) : Node :=
  let a0 := img e 0 4
  let a4 := img e 0x10 4
  let a5 := img e 0x14 4
  { levels := (List.range (fld a0 21 3 + 1)).map (fun l => levelOf (img e (0x20 + 4 * l) 4)), tiles := fld a0 16 5, entry := fld a0 0 14,
    nop := fld (img e 4 4) 16 5, opbase := fld (img e 4 4) 0 16, imgva := img e 8 8, ilen := fld a4 16 14, ibase := fld a4 0 14,
    skim := if a5.testBit 15 then some (fld a5 0 14) else none }

/-- The reserved bits and ranges of a node entry (code 0x12). -/
def nodeClean (e : List Byte) (nops : Nat) : Bool :=
  let a0 := img e 0 4
  let a1 := img e 4 4
  let a4 := img e 0x10 4
  let a5 := img e 0x14 4
  let n := nodeOf e
  fld a0 24 8 == 0 && fld a0 14 2 == 0 && fld a1 21 11 == 0 && fld a4 30 2 == 0 && fld a4 14 2 == 0 && fld a5 16 16 == 0 && !a5.testBit 14
    && (a5.testBit 15 || fld a5 0 14 == 0) && img e 0x18 8 == 0
    && (List.range 8).all (fun l => fld (img e (0x20 + 4 * l) 4) 22 10 == 0 && (decide (l < n.levels.length) || img e (0x20 + 4 * l) 4 == 0))
    && decide (n.nop ≤ 16) && decide (n.opbase + n.nop ≤ nops)

/-- An operand entry. -/
def operandOf (e : List Byte) : Operand :=
  let x := img e 0x10 4
  ⟨img e 0 8, img e 8 8, fld x 2 2, x.testBit 1, fld x 0 1, img e 0x14 4, img e 0x18 8⟩

/-- A semaphore entry: package flag, mode, initial count, expectation. -/
def semOf (e : List Byte) : Bool × Nat × Nat × Nat := ((img e 0 4).testBit 2, fld (img e 0 4) 0 2, img e 4 4, img e 8 4)

/-- A stream entry: producing die, consuming die, outbound and inbound endpoint, log2 of the slot size, slots. -/
def streamOf (e : List Byte) : Nat × Nat × Nat × Nat × Nat × Nat :=
  let x := img e 0 4
  (fld x 0 4, fld x 4 4, fld x 8 5, fld x 13 5, fld x 18 4, fld (img e 4 4) 0 12 + 1)

/-- A relocation entry: VA, kind, index. -/
def relocOf (e : List Byte) : Nat × Nat × Nat := (img e 0 8, fld (img e 8 4) 16 2, fld (img e 8 4) 0 16)

/-- The body some bytes hold. -/
def bodyOf (b : List Byte) : Body :=
  let h := bodyHead b
  { nodes := (h.table b 0 h.nn).map nodeOf, edges := (h.table b 1 h.ne).map (fun e => (img e 0 2, img e 2 2)),
    ops := (h.table b 2 h.nops).map operandOf, sems := (h.table b 3 h.nsem).map semOf, pails := (h.table b 4 h.npail).map (fun e => BitVec.ofNat 64 (img e 0 8)),
    streams := (h.table b 5 h.nstream).map streamOf, relocs := (h.table b 6 h.nreloc).map relocOf }

/-- Every range and reserved bit of the tables (code 0x12). -/
def tablesClean (b : List Byte) : Bool :=
  let h := bodyHead b
  (h.table b 0 h.nn).all (fun e => nodeClean e h.nops)
    && (h.table b 2 h.nops).all (fun e => fld (img e 0x10 4) 4 28 == 0)
    && (h.table b 3 h.nsem).all (fun e => fld (img e 0 4) 3 29 == 0 && img e 0xC 4 == 0)
    && (h.table b 4 h.npail).all (fun e => !(img e 0 8).testBit 35 && fld (img e 0 8) 44 20 == 0 && img e 8 8 == 0)
    && (h.table b 5 h.nstream).all (fun e => fld (img e 0 4) 22 10 == 0 && fld (img e 4 4) 12 20 == 0 && img e 8 8 == 0)
    && (h.table b 6 h.nreloc).all (fun e => fld (img e 8 4) 18 14 == 0 && img e 0xC 4 == 0)

/-! ### Level tables, edges, streams, pails (codes 0x13 to 0x16) -/

/-- No level's domain or scope is wider than that of the level outside it (01 R16). -/
def levelsNest : List Level → Bool
  | x :: y :: t => decide (x.domain ≤ y.domain) && decide (y.scope ≤ x.scope) && levelsNest (y :: t)
  | _ => true

/-- A level table is legal (01 R16). -/
def levelsLegal (l : List Level) : Bool :=
  levelsNest l && l.all (fun x => decide (x.domain ≤ 4) && x.scope != 3) && decide ((l.map (fun x => x.extent)).foldl (· * ·) 1 ≤ 2 ^ 32)

/-- Removes the nodes no remaining edge leads to, `fuel` rounds at most: what is left holds every cycle. -/
def peelNodes (edges : List (Nat × Nat)) : Nat → List Nat → List Nat
  | 0, l => l
  | n + 1, l =>
    let l' := l.filter (fun b => edges.any (fun e => e.2 == b && l.contains e.1))
    if l'.length = l.length then l else peelNodes edges n l'

/-- The edges are legal (code 0x14). -/
def edgesLegal (x : Body) : Bool :=
  let n := x.nodes.length
  x.edges.all (fun e => decide (e.1 < n) && decide (e.2 < n) && e.1 != e.2) && decide x.edges.Nodup && (peelNodes x.edges n (List.range n)).isEmpty

/-- The dies of a mask. -/
def diesOf (m : Nat) : List Nat := (List.range 12).filter (fun d => m.testBit d)

/-- The streams of active launches that use a die's endpoint: outbound ones of the producing die, inbound ones of the consuming die, until
that die has reported the launch complete (14 R309). -/
def State.endpointUsed (s : State) (out : Bool) (d ep : Nat) : Bool :=
  s.gallery.any (fun z => (if out then z.src == d && z.out == ep else z.dst == d && z.inp == ep)
    && s.launches.any (fun l => l.seq == z.launch && !l.done.contains d))

/-- The bytes of stream buffer a die's active launches use. -/
def State.bufferUsed (s : State) (d : Nat) : Nat :=
  ((s.gallery.filter (fun z => z.dst == d && s.launches.any (fun l => l.seq == z.launch && !l.done.contains d))).map
    (fun z => z.count * 2 ^ z.slog)).foldl (· + ·) 0

/-- The streams are legal (01 R23-R24, code 0x15), for a launch of a partition on some live dies. -/
def State.streamsLegal (s : State) (x : Body) (dies : List Nat) : Bool :=
  x.streams.all (fun z =>
      dies.contains z.1 && dies.contains z.2.1 && (z.1 == z.2.1 + 1 || z.2.1 == z.1 + 1)
        && decide (9 ≤ z.2.2.2.2.1) && decide (z.2.2.2.2.1 ≤ 16)
        && !s.endpointUsed true z.1 z.2.2.1 && !s.endpointUsed false z.2.1 z.2.2.2.1)
    && decide ((x.streams.map (fun z => (z.1, z.2.2.1))).Nodup) && decide ((x.streams.map (fun z => (z.2.1, z.2.2.2.1))).Nodup)
    && dies.all (fun d =>
        x.streams.all (fun z => z.2.1 != d)
          || decide (s.bufferUsed d + ((x.streams.filter (fun z => z.2.1 == d)).map (fun z => z.2.2.2.2.2 * 2 ^ z.2.2.2.2.1)).foldl (· + ·) 0
              ≤ Config.streamBuffer))

/-- Pail geometry (03 R67): an aligned ring inside one core's populated slice, and outside its docent area (13 R271): that a
body whose ring meets one is refused, and with code 0x16, is the model's choice (log entry 112). -/
def pailLegal (g : Word) : Bool :=
  pailBase g % 512 == 0 && decide (pailBase g < 0x08000000) && decide (pailBase g % 0x200000 + pailCount g * pailSize g ≤ 0x17F000)

/-! ### Operands, semaphores, relocations (codes 0x17 and 0x18) -/

/-- Whether a range of local S-space meets a docent area, where the Registrar places no region (13 R271). -/
def meetsDocent (a n : Nat) : Bool :=
  let slice := a / 0x200000 * 0x200000
  let first := if a < slice + 0x180000 then slice + 0x17F000 else slice + 0x200000 + 0x17F000
  decide (first < 0x08000000) && decide (first < a + n)

/-- One operand (04 R86, 06 R151). -/
def operandLegal (x : Body) (o : Operand) : Bool :=
  match regionCheck o.space o.base o.size with
  | .error _ => false
  | .ok space =>
    (space != 1 || !meetsDocent o.base o.size) &&
    match o.obj with
    | 0 => true
    | 1 => decide (space ≤ 1) && (match x.sems[o.semidx]? with | some q => !q.1 | none => false)
    | 2 => o.flag % 8 == 0 && spaceOf o.space o.flag 8 == some space
    | _ => false

/-- The operands of a node. -/
def Body.operands (x : Body) (n : Node) : List Operand := (x.ops.drop n.opbase).take n.nop

/-- Whether two operands bind one byte to two objects. -/
def Operand.clash (o p : Operand) : Bool :=
  o.obj != 0 && p.obj != 0 && o.space == p.space && decide (o.base < p.base + p.size) && decide (p.base < o.base + o.size)
    && !(o.obj == p.obj && (if o.obj = 1 then o.semidx == p.semidx else o.flag == p.flag))

/-- No byte of a node is bound to two objects. -/
def noClash : List Operand → Bool
  | [] => true
  | o :: t => t.all (fun p => !o.clash p) && noClash t

/-- A semaphore entry (code 0x18). -/
def semLegal (q : Bool × Nat × Nat × Nat) : Bool :=
  (q.2.1 == 0 && q.2.2.2 == 0) || (q.2.1 == 1 && decide (1 ≤ q.2.2.2) && decide (q.2.2.2 < 2 ^ 28))

/-- The address an access of a die's Registrar translates to. -/
def State.mapReg (s : State) (d asid va n : Nat) (w : Bool) : MapRes := s.mapVA ⟨d, 0⟩ .scu asid va n (!w) w

/-- The address a page table gives an access of a die's Registrar, whether or not the walkers walk: a page that is present is no refusal under
assisted walks (15 R329, log entry 44). -/
def State.mapTables (s : State) (d asid va n : Nat) (w : Bool) : MapRes := ({ s with duty := s.duty &&& 0xBF } : State).mapReg d asid va n w

/-- A relocation entry (code 0x18): aligned, in range, on a page a store may write. -/
def State.relocLegal (s : State) (d asid : Nat) (x : Body) (r : Nat × Nat × Nat) : Bool :=
  r.1 % 4 == 0 && decide (r.1 + 4 ≤ 2 ^ 56) && (if r.2.1 = 0 then decide (r.2.2 < x.sems.length) else r.2.1 == 1 && decide (r.2.2 < x.pails.length))
    && (match s.mapTables d asid r.1 4 true with | .ok _ _ => true | _ => false)

/-! ### Images (code 0x19) -/

/-- A skim block's limits (14 R313), `i` being its first halfword in an image of `len` halfwords. -/
def skimLegal (im : List Byte) (i len : Nat) : Bool :=
  let half (k : Nat) : Nat := img im (2 * (i + k)) 2
  let n := fld (half 4) 0 11
  (List.range 8).all (fun l => decide (img im (2 * i + l) 1 ≤ 2)) && fld (half 4) 11 5 == 0 && decide (1 ≤ n) && decide (n ≤ 1024)
    && decide (i + 5 + 3 * n ≤ len) && (List.range (3 * n)).all (fun k => !(half (5 + k)).testBit 14)

/-- A node's image is readable and its skim block legal (14 R312-R313). -/
def State.imageLegal (s : State) (d asid : Nat) (n : Node) : Bool :=
  let len := n.ilen + 1
  decide (n.tiles ≤ 16) && decide (n.ibase + n.ilen ≤ 16383) && decide (n.imgva + 2 * len ≤ 2 ^ 56)
    && (match s.mapTables d asid n.imgva (2 * len) false with
        | .ok as s' =>
          (s'.eccHit as).isNone
            && (match n.skim with
                | none => true
                | some k => decide (n.ibase ≤ k) && decide (k + 5 ≤ n.ibase + len) && skimLegal (as.map s'.rd) (k - n.ibase) len)
        | _ => false)

/-! ### Distribution (01 R17-R18, 14 R317) -/

/-- The units that point `x` of `e` points gets of an ordered unit set. -/
def unitsOf (x e : Nat) (u : List Nat) (cyclic : Bool) : List Nat :=
  let n := u.length
  let at_ (i : Nat) : Nat := u.getD i 0
  if n = 0 then []
  else if n ≤ e then
    if cyclic then [at_ (x % n)]
    else
      let q := e / n
      let m := e % n
      [at_ (if x < m * (q + 1) then x / (q + 1) else m + (x - m * (q + 1)) / q)]
  else if cyclic then ((List.range n).filter (fun i => i % e == x)).map at_
  else
    let q := n / e
    let m := n % e
    (u.drop (x * q + min x m)).take (q + (if x < m then 1 else 0))

/-- What the levels outside have given: nothing yet, clusters, or cores. -/
inductive Units where
  | all
  | clusters (l : List Nat)
  | cores (l : List Nat)
deriving DecidableEq, Repr

/-- The live cores of a mask. -/
def coresOf (m : Nat) : List Nat := (List.range 64).filter (fun c => m.testBit c)

/-- The live cores among some units. -/
def Units.liveCores (u : Units) (live : Nat) : List Nat :=
  match u with
  | .all => coresOf live
  | .clusters l => (coresOf live).filter (fun c => l.contains (c / 8))
  | .cores l => l

/-- The live clusters among some units. -/
def Units.liveClusters (u : Units) (live : Nat) : List Nat :=
  (List.range 8).filter (fun k => (u.liveCores live).any (fun c => c / 8 == k))

/-- What a point of one level gives of dies and units. -/
def levelGives (live : List Nat) (st : List Nat × Units) (l : Level) (x : Nat) : List Nat × Units :=
  let m := live.getD (st.1.headD 0) 0
  match l.domain with
  | 2 => (st.1, .clusters (unitsOf x l.extent (st.2.liveClusters m) l.cyclic))
  | 3 => (st.1, .cores (unitsOf x l.extent (st.2.liveCores m) l.cyclic))
  | _ => (unitsOf x l.extent st.1 l.cyclic, st.2)

/-- The die and candidate cores of an instance: a point of a node's distributed levels. -/
def placeOf (live : List Nat) (dies : List Nat) (w : List Level) (x : List Nat) : Nat × List Nat :=
  let r := (w.zip x).foldl (fun st e => levelGives live st e.1 e.2) (dies, Units.all)
  (r.1.headD 12, r.2.liveCores (live.getD (r.1.headD 12) 0))

/-- The points of a level table, level 0 slowest. -/
def pointsOf : List Level → List (List Nat)
  | [] => [[]]
  | l :: t => ((List.range l.extent).map (fun i => (pointsOf t).map (fun p => i :: p))).flatten

/-- The levels of a node that are distributed. -/
def Node.spread (n : Node) : List Level := n.levels.filter (fun l => l.domain != 4)

/-- Inst(n, d): the points of a node on a die with their candidate cores, in order (14 R317). -/
def instOf (live : List Nat) (dies : List Nat) (d : Nat) (n : Node) : List (List Nat × List Nat) :=
  ((pointsOf n.spread).filter (fun x => (placeOf live dies n.spread x).1 == d)).map (fun x => (x, (placeOf live dies n.spread x).2))

/-- P(B, d): the instances whose end node `b` waits for on a die (14 R318). -/
def predCount (x : Body) (live : List Nat) (dies : List Nat) (b d : Nat) : Nat :=
  ((x.edges.filter (fun e => e.2 == b)).map (fun e =>
    match x.nodes[e.1]? with | some n => (instOf live dies d n).length | none => 0)).foldl (· + ·) 0

/-- A level has an empty unit set on some live die: it is bound to clusters or cores and the die has no live core (01 R17, code 0x1B). -/
def emptyUnits (x : Body) (live : List Nat) (dies : List Nat) : Bool :=
  x.nodes.any (fun n => n.levels.any (fun l => l.domain == 2 || l.domain == 3)) && dies.any (fun d => (coresOf (live.getD d 0)).isEmpty)

/-! ### The Registrar's checks (14 R316) -/

/-- The first refusal code of a readable body on a die; none when it is accepted. -/
def State.bodyCode (s : State) (o : OfferSt) (d : Nat) (b : List Byte) : Option Nat :=
  let x := bodyOf b
  if (crc32 b).toNat ≠ o.q.bodySum then some 0x11
  else if !headLegal b || !tablesClean b then some 0x12
  else if !x.nodes.all (fun n => levelsLegal n.levels) then some 0x13
  else if !edgesLegal x then some 0x14
  else if !s.streamsLegal x (o.live.filter (fun e => (s.partDies o.part).contains e)) then some 0x15
  else if !x.pails.all pailLegal then some 0x16
  else if !x.ops.all (operandLegal x) || !x.nodes.all (fun n => noClash (x.operands n)) then some 0x17
  else if !x.sems.all semLegal || !x.relocs.all (s.relocLegal d o.asid x) then some 0x18
  else if !x.nodes.all (s.imageLegal d o.asid) then some 0x19
  else if (List.range x.nodes.length).any (fun n => o.live.any (fun e => decide (2 ^ 31 - 1 < predCount x o.cores o.live n e))) then some 0x1A
  else if emptyUnits x o.cores o.live then some 0x1B
  else none

end Sys2Proof.Machine
end

