-- ==== Sys2Proof/Machine/Registrar.lean ====
section
/-! DEFINITION. The life of a launch: QLAUNCH, the offer and its answers, GO, the ready pool and placement, the start and the end of a
task, and completion (01 R20, 14 R308-R310, R317-R321, 16 R361-R362). -/

namespace Sys2Proof.Machine

/-! ### The offer (14 R308) -/

/-- QLAUNCH: after the AFTER wait, refused with 0x1B without a live die or outside PART, else offered to every live die of DIES. -/
def execQlaunch (after weight cls dies depth bodyLen body bodySum arg : Nat) (s : State) : Res :=
  s.packet (.qlaunch after weight cls dies depth bodyLen body bodySum arg) (fun q x s =>
    if after = 1 ∧ s.outstanding q then .wait .after s
    else
      let live := (diesOf dies).filter (fun d => s.service.livedie.testBit d)
      if live.isEmpty || !(diesOf dies).all (s.partDies x.part).contains then .error 0x1B s
      else
        let l : QLaunch := ⟨q, weight, cls, dies, depth, bodyLen, body, bodySum, arg, x.point.byteAddr q, x.head.toNat⟩
        let o : OfferSt := ⟨l, x.asid, x.part, live, s.service.livecore.toList, live.map (fun d => (d, .none)), none⟩
        let s := s.modQueue q (fun y => { y with offer := some o, wait := .offer })
        let s : State := { s with service := { s.service with reopened := s.service.reopened.filter (fun e => !live.contains e.1) } }
        .offered (live.foldl (fun s d => s.send (.offer d)) s))

/-- The launches a die's Registrar holds active. -/
def State.activeOn (s : State) (d : Nat) : List Launch := s.launches.filter (fun l => l.dies.contains d && !l.done.contains d)

/-- The die-vault words a body needs. -/
def Body.dieWords (x : Body) : Nat := 4 * x.pails.length + (x.sems.filter (fun q => !q.1)).length
/-- The package-vault words a body needs. -/
def Body.pkgWords (x : Body) : Nat := (x.sems.filter (fun q => q.1)).length

/-- The lowest multiple of 4 at which some words are free on every die of a list (14 R309). -/
def State.findBase (s : State) (dies : List Nat) (n : Nat) : Option Nat :=
  let held := s.launches.filter (fun l => l.words != 0 && dies.any l.dies.contains)
  ((List.range 2560).map (fun i => 4 * i)).find? (fun b =>
    decide (b + n ≤ 10240) && (n == 0 || held.all (fun l => decide (b + n ≤ l.base) || decide (l.base + l.words ≤ b))))

/-- The lowest free run of package-vault indices in the allotment range (14 R410). -/
def State.findPkg (s : State) (n : Nat) : Option Nat :=
  if n = 0 then some 0
  else
    let held := s.launches.filter (fun l => l.pwords != 0)
    (rangeFrom s.pvFirst (s.pvLast + 1 - s.pvFirst)).find? (fun b =>
      decide (b + n ≤ s.pvLast + 1) && held.all (fun l => decide (b + n ≤ l.pbase) || decide (l.pbase + l.pwords ≤ b)))

/-- The bodies of the offers that a die's Registrar has accepted and that are neither dispatched nor dropped yet. -/
def State.acceptedOn (s : State) (d : Nat) : List Body :=
  ((Table.keys s.queues).filterMap (fun q => (s.queue q).offer)).filterMap (fun o => if o.answers.contains (d, .accept) then o.body else none)

/-- Whether a Registrar answers BUSY to a body: 64 active launches, no room in its vault or in its count area, in which an offer that it has accepted
keeps its room (log entry 107). -/
def State.registrarBusy (s : State) (d : Nat) (x : Body) : Bool :=
  let held := (s.activeOn d).map (fun l => l.body) ++ s.acceptedOn d
  decide (64 ≤ held.length) || (s.findBase [d] x.dieWords).isNone
    || decide (4096 < (held.map (fun b => b.nodes.length)).foldl (· + ·) 0 + x.nodes.length)

/-- Records a die's answer to a queue's offer. -/
def State.answer (s : State) (q d : Nat) (a : Answer) (x : Option Body) : State :=
  s.modQueue q (fun y => { y with offer := y.offer.map (fun o =>
    { o with answers := o.answers.map (fun e => if e.1 = d then (d, a) else e), body := x.or o.body }) })

/-- The queue whose offer a die has still to answer. -/
def State.offered (s : State) (d : Nat) : Option (Nat × OfferSt) :=
  ((Table.keys s.queues).filterMap (fun q => (s.queue q).offer.map (fun o => (q, o)))).find? (fun e => e.2.answers.contains (d, .none))

/-- OFFER: a Registrar reads and checks the body, and answers; it holds its answer while the read is parked, and the queue's turn ends
then (14 R308, R316, 16 R364). It waits while its die repairs a row (18 R395). -/
def execOffer (die : Nat) (s : State) : Res :=
  match s.offered die with
  | none => .next s
  | some (q, o) =>
    if (s.die die).repairBusy then .next s
    else if (s.die die).resetAt.isSome then .next (s.answer q die .busy none)
    else if 2 ^ 56 < o.q.body + 64 * o.q.bodyLen then .next (s.answer q die (.refuse 0x10) none)
    else
      match s.mapReg die o.asid o.q.body (64 * o.q.bodyLen) false with
      | .fault _ _ s' => .next (s'.answer q die (.refuse 0x10) none)
      | .busy s' => .next s'
      | .absent va kind s' => .next ((((s'.answer q die .held none).park die va o.asid kind false .registrar).endTurn q).rewake)
      | .ok as s' =>
        if (s'.eccHit as).isSome then .next (s'.answer q die (.refuse 0x10) none)
        else
          let b := as.map s'.rd
          match s'.bodyCode o die b with
          | some c => .next (s'.answer q die (.refuse c) none)
          | none => .next (s'.answer q die (if s'.registrarBusy die (bodyOf b) then .busy else .accept) (some (bodyOf b)))

/-! ### Answers and GO (14 R308-R309) -/

/-- The word a semaphore entry starts with (14 R309). -/
def semInit (q : Bool × Nat × Nat × Nat) : Word :=
  if q.2.1 = 1 then mkSem q.2.2.2 1 false 0 else mkSem 0 0 false (signed 32 q.2.2.1)

/-- Writes consecutive vault words. -/
def State.setWords (s : State) (key : Nat) : List Word → State
  | [] => s
  | w :: t => (s.setWord key w).setWords (key + 1) t

/-- The words of a launch's pails and die semaphores, in order. -/
def Body.initWords (x : Body) : List Word :=
  (x.pails.map (fun g => [mkSem 0 2 false 0, mkSem 0 3 false (pailCount g), 0, g])).flatten ++ (x.sems.filter (fun q => !q.1)).map semInit

/-- The handle a relocation names (14 R309). -/
def Launch.handleOf (l : Launch) (kind i : Nat) : Nat :=
  if kind = 1 then l.base + 4 * i
  else
    let p := match l.body.sems[i]? with | some q => q.1 | none => false
    let rank := ((l.body.sems.take i).filter (fun q => q.1 == p)).length
    if p then 2 ^ 16 + l.pbase + rank else l.base + 4 * l.body.pails.length + rank

/-- The stream states a launch starts with (10 R243). -/
def Launch.streams (l : Launch) : List StreamSt :=
  (numbered l.body.streams).map (fun e =>
    let z := e.2
    ⟨l.seq, e.1, z.1, z.2.1, z.2.2.1, z.2.2.2.1, z.2.2.2.2.1, z.2.2.2.2.2, z.2.2.2.2.2, 0, 0, 0, [], [], []⟩)

/-- Ends an offer without dispatching it. -/
def State.dropOffer (s : State) (q : Nat) (o : OfferSt) : State :=
  o.live.foldl (fun s d => s.send (.drop d)) (s.modQueue q (fun y => { y with offer := none }))

/-- An offer answered BUSY: DROP, and the queue waits for a launch to complete on one of some dies. -/
def State.offerBusy (s : State) (q : Nat) (o : OfferSt) (dies : List Nat) : State :=
  ((((s.dropOffer q o).modQueue q (fun y => { y with wait := .busy dies })).endTurn q).boundary q).rewake

/-- GO: the words are allotted, the package semaphores initialised, and the queue moves on, charged WEIGHT. -/
def State.offerGo (s : State) (q : Nat) (o : OfferSt) (x : Body) (b p : Nat) : State :=
  let seq := s.launchSeq
  let l : Launch := ⟨seq, o.q, o.asid, o.part, o.live, o.cores, x, b, x.dieWords, p, x.pkgWords, o.live, [], false, s.duty.testBit 3⟩
  let s := s.setWords (pkgWord p) ((x.sems.filter (fun z => z.1)).map semInit)
  let s := { s with launchSeq := (seq + 1) % 2 ^ 32, launches := s.launches ++ [l], gallery := s.gallery ++ l.streams }
  let s := o.live.foldl (fun s d => s.send (.go d)) s
  let s := s.modQueue q (fun y =>
    ({ y.at_ (y.beyond 10) with offer := none, wait := .no, lastseq := seq, curLaunches := y.curLaunches ++ [seq] } : Queue).arrive)
  ((((s.chargeQueue q o.q.weight).endTurn q).boundary q).pollQueues).rewake

/-- Acts on an offer every die has answered. -/
def State.judgeOffer (s : State) (q : Nat) (o : OfferSt) : State :=
  match o.answers.find? (fun e => match e.2 with | .refuse _ => true | _ => false) with
  | some (_, .refuse c) => (s.dropOffer q o).queueError q c o.q.epos
  | _ =>
    let busy := (o.answers.filter (fun e => e.2 == .busy)).map Prod.fst
    match busy, o.body with
    | [], some x =>
      match s.findBase o.live x.dieWords, s.findPkg x.pkgWords with
      | some b, some p => s.offerGo q o x b p
      | _, _ => s.offerBusy q o o.live
    | _, _ => s.offerBusy q o busy

/-- Whether every die has answered an offer. -/
def OfferSt.answered (o : OfferSt) : Bool := o.answers.all (fun e => e.2 != .none && e.2 != .held)

/-- OFFER_ANSWER: admissions acts on the first offer that every Registrar has answered. -/
def execOfferAnswer (s : State) : Res :=
  match ((Table.keys s.queues).filterMap (fun q => (s.queue q).offer.map (fun o => (q, o)))).find? (fun e => e.2.answered) with
  | none => .next s
  | some (q, o) => .next (s.judgeOffer q o)

/-- DROP: a Registrar forgets an offer, with its parked body reads. -/
def execDrop (die : Nat) (s : State) : Res :=
  let held := (Table.keys s.queues).any (fun q => match (s.queue q).offer with | some o => o.answers.contains (die, .held) | none => false)
  .next (if held then s else s.modDie die (fun y => { y with parked := y.parked.filter (fun p => p.owner != .registrar || p.wr) }))

/-! ### Reports (14 R310, R318, 16 R362) -/

/-- Whether an instance has ended or been failed. -/
def Inst.isOver (i : Inst) : Bool := i.status == .ended || i.status == .failed

/-- Whether a launch has been failed. -/
def State.launchFailed (s : State) (seq : Nat) : Bool := s.launches.any (fun l => l.seq == seq && l.failed)

/-- What a die's Registrar reports: the waiting and ready instances of failed launches are failed too, streams lose what ended tasks undid, and the launches whose instances
on the die are all over are reported complete, with what they held on the die freed. -/
def State.settleDie (s : State) (d : Nat) : State :=
  let s := s.modDie d (fun y => { y with insts := y.insts.map (fun i =>
    if s.launchFailed i.launch ∧ (i.status = .waiting ∨ i.status = .ready) then { i with status := .failed, set := none } else i) })
  let s := s.forgetSlots d
  let y := s.die d
  let reports (l : Launch) : Bool :=
    l.dies.contains d && !l.pending.contains d && !l.done.contains d && y.insts.all (fun i => i.launch != l.seq || i.isOver)
  let seqs := (s.launches.filter reports).map (fun l => l.seq)
  let s := s.modDie d (fun y => { y with insts := y.insts.filter (fun i => !seqs.contains i.launch), preds := y.preds.filter (fun p => !seqs.contains p.1) })
  { s with launches := s.launches.map (fun l => if seqs.contains l.seq then { l with done := l.done ++ [d] } else l) }

/-! ### GO on a die (14 R309, R317-R318) -/

/-- What the relocations of a launch come to on a die: every handle written, or the first page that is not there. -/
def State.relocateAll (s : State) (d : Nat) (l : Launch) : List (Nat × Nat × Nat) → Except (Nat × Nat) State
  | [] => .ok s
  | r :: t =>
    match s.mapReg d l.asid r.1 4 true with
    | .ok as s' => (s'.store (as.zip (natLe 4 (l.handleOf r.2.1 r.2.2)))).relocateAll d l t
    | .absent va kind _ => .error (va, kind)
    | .fault _ _ s' => s'.relocateAll d l t
    | .busy s' => s'.relocateAll d l t

/-- The instances a launch has on a die. -/
def Launch.instsOn (l : Launch) (d : Nat) : List Inst :=
  ((numbered l.body.nodes).map (fun e =>
    (instOf l.cores l.dies d e.2).map (fun i =>
      ⟨l.seq, e.1, i.1, i.2, l.q.cls, 0, false, none, if predCount l.body l.cores l.dies e.1 d = 0 then .ready else .waiting⟩))).flatten

/-- The free words of a die's count area (14 R309). -/
def Die.freeCounts (y : Die) : List Nat := (rangeFrom 10240 4096).filter (fun i => !y.preds.any (fun p => p.2.2 == i))

/-- The words of a die's count area that hold a launch's predecessor counts, lowest free ones first: node, word and count. -/
def State.countWords (s : State) (d : Nat) (l : Launch) : List (Nat × Nat × Nat) :=
  ((List.range l.body.nodes.length).zip (s.die d).freeCounts).map (fun e => (e.1, e.2, predCount l.body l.cores l.dies e.1 d))

/-- The vault word of a die's predecessor counts whose copies have both failed (16 R364). -/
def State.failedCount (s : State) (d : Nat) : Option Nat := (((s.die d).preds.map (fun p => dieWord d p.2.2)).find? s.vaultBad.contains)

/-- What the Registrar's use of its count area comes to: a die reset when a word of it has failed. -/
def State.checkCounts (s : State) (d : Nat) : State :=
  match s.failedCount d with
  | some k => s.vaultFailure k
  | none => s

/-- Whether a GO waits behind a relocation's page. -/
def State.goParked (s : State) (d : Nat) : Bool := (s.die d).parked.any (fun p => p.owner == .registrar && p.wr)

/-- GO: the Registrar of a die, once no row of its die is under repair, writes the launch's words and handles and finds its instances and
predecessor counts. A relocation's page that is not there any more parks the Registrar's write (15 R327; log entry 81). -/
def execGo (die : Nat) (s : State) : Res :=
  match s.launches.find? (fun l => l.pending.contains die) with
  | none => .next s
  | some l =>
    if (s.die die).resetAt.isSome || (s.die die).repairBusy || s.goParked die then .next s
    else
      match s.relocateAll die l l.body.relocs with
      | .error (va, kind) => .next (s.park die va l.asid kind true .registrar)
      | .ok s =>
        let s := (s.beginOrder die).setWords (dieWord die l.base) l.body.initWords
        let counts := s.countWords die l
        let s := counts.foldl (fun s e => s.setWord (dieWord die e.2.1) (BitVec.ofNat 64 e.2.2)) s
        let s := s.modDie die (fun y => { y with insts := y.insts ++ l.instsOn die, preds := y.preds ++ counts.map (fun e => (l.seq, e.1, e.2.1)) })
        let s : State := { s with launches := s.launches.map (fun m => if m.seq = l.seq then { m with pending := m.pending.filter (fun d => d != die) } else m) }
        .next (s.settleDie die)

/-! ### The ready pool (14 R319-R320) -/

/-- Whether an instance stands before another in the pool: by class, then launch sequence number, then node. -/
def Inst.ahead (i j : Inst) : Bool :=
  decide (j.cls < i.cls) || (i.cls == j.cls && (decide (i.launch < j.launch) || (i.launch == j.launch && decide (i.node < j.node))))

/-- Inserts an instance before those it does not stand behind. -/
def poolInsert (i : Inst) : List Inst → List Inst
  | [] => [i]
  | j :: t => if j.ahead i then j :: poolInsert i t else i :: j :: t

/-- The ready pool of a die, in order. -/
def State.readyPool (s : State) (d : Nat) : List Inst := ((s.die d).insts.filter (fun i => i.status == .ready)).foldr poolInsert []

/-- Whether two entries are the same instance. -/
def Inst.same (i j : Inst) : Bool := i.launch == j.launch && i.node == j.node && i.point == j.point

/-- The free tile positions of a core. -/
def State.freeTiles (s : State) (c : CoreId) : List Nat :=
  (List.range 16).filter (fun p => !(s.core c).tileMap.any (fun e => e.2.2 == p))

/-- The image of a node in a launch. -/
def Launch.image (l : Launch) (n : Node) : Image := ⟨l.asid, n.imgva, n.ilen, n.ibase⟩

/-- Whether an I-space range is unused on a core or holds this image. -/
def Core.imageFits (k : Core) (i : Image) : Bool :=
  k.images.all (fun e => e.1 == i || decide (e.1.ibase + e.1.ilen < i.ibase) || decide (i.ibase + i.ilen < e.1.ibase))

/-- The free slots of a core. -/
def State.freeSlots (s : State) (c : CoreId) : List Nat := (List.range 4).filter (fun x => (s.task (c.ctx x)).isNone)

/-- Whether a core of a die is open to an instance: while it is live, and, if it was returned to service, an offer has come since; one that is not
takes no instance that is reissued, and whether it takes one that has not been placed before is a free choice (18 R392; log entry 92). -/
def State.coreOpen (s : State) (k : CoreId) (i : Inst) : Bool :=
  ((s.service.livecore.getD k.die 0).testBit k.core && !s.service.reopened.contains (k.die, k.core)) || (i.set.isNone && Config.freeBit (s.freeCtr + k.core))

/-- Whether a core of a die may take an instance: open to it and running, with a free slot, the tiles and the I-space (14 R320). -/
def State.coreTakes (s : State) (d : Nat) (l : Launch) (n : Node) (i : Inst) (c : Nat) : Bool :=
  let k : CoreId := ⟨d, c⟩
  s.coreOpen k i && s.coreRuns k && !(s.freeSlots k).isEmpty
    && decide (n.tiles ≤ (s.freeTiles k).length) && (s.core k).imageFits (l.image n)

/-- The core of some that is least loaded, then first in the launch's rotation. -/
def State.leastLoaded (s : State) (d seq : Nat) : List Nat → Option Nat
  | [] => none
  | c :: t =>
    match s.leastLoaded d seq t with
    | none => some c
    | some b =>
      let load (x : Nat) : Nat := 4 - (s.freeSlots ⟨d, x⟩).length
      let turn (x : Nat) : Nat := (x + 64 - seq % 64) % 64
      if load b < load c ∨ (load b = load c ∧ turn b < turn c) then some b else some c

/-- The core Place chooses, its candidates less some barred ones (14 R320); for a launch under DUTY bit 3 the Curator's placement table
names one, a free choice (13 R290, log entry 25), which waits while no supervisor is active. -/
def State.placeCore (s : State) (d : Nat) (l : Launch) (n : Node) (i : Inst) (barred : List Nat) : Option Nat :=
  let f := i.cand.filter (fun c => !barred.contains c && s.coreTakes d l n i c)
  if l.assisted then (if f.isEmpty || s.cur.takeover then none else f[(Config.freeWord (s.freeCtr + i.bypass)).toNat % f.length]?)
  else
  match (l.body.operands n).find? (fun o => !o.out) with
  | some o => if o.space = 1 ∧ o.base < 0x08000000 ∧ f.contains (o.base / 0x200000) then some (o.base / 0x200000) else s.leastLoaded d l.seq f
  | none => s.leastLoaded d l.seq f

/-- The declared bindings of a node (14 R321). -/
def Launch.declared (l : Launch) (n : Node) : List Binding :=
  ((l.body.operands n).filter (fun o => o.obj != 0)).map (fun o =>
    { space := (spaceOf o.space o.base o.size).getD 0, base := o.base, len := o.size, declared := true,
      obj := if o.obj = 1 then .sem (l.handleOf 0 o.semidx) else .flag o.flag })

/-- The allotment of a launch: its die-vault and package-vault runs. -/
def Launch.allot (l : Launch) : List (Nat × Nat × Nat) := [(0, l.base, l.words), (1, l.pbase, l.pwords)]

/-- The task an instance becomes. -/
def Launch.taskOf (l : Launch) (n : Node) (i : Inst) (set : Nat) : Task where
  launch := l.seq
  node := i.node
  point := i.point
  entry := n.entry
  arg := BitVec.ofNat 64 l.q.arg
  cls := l.q.cls
  asid := l.asid
  part := l.part
  depth := l.q.depth
  tiles := n.tiles
  image := l.image n
  skim := n.skim
  slotLevels := ((numbered n.levels).filter (fun e => e.2.domain == 4)).map (fun e => (e.1, e.2.extent))
  bindings := l.declared n
  allot := l.allot
  started := false
  loadFail := none
  frozen := false
  inHandler := false
  frozenSrc := 0
  frozenCause := 0
  frozenAt := 0
  later := []
  laterCount := 0
  abandoned := false
  preempting := false
  preempted := false
  parked := false
  unreplayable := false
  set := set
  p := Vector.replicate 5 0

/-- A replay set that no instance of a die holds (14 R309, 16 R361). -/
def State.freeSet (s : State) (d : Nat) : Option Nat :=
  (List.range 256).find? (fun k => !(s.die d).insts.any (fun i => i.set == some k))

/-- The replay set of an instance: the one it holds, or a free one with its words zeroed. -/
def State.takeSet (s : State) (d : Nat) (i : Inst) : Nat × State :=
  match i.set with
  | some k => (k, s)
  | none => let k := (s.freeSet d).getD 0; (k, s.setWords (dieWord d (14336 + 8 * k)) (List.replicate 8 0))

/-- Places an instance on the lowest free slot of a core, its tiles at the lowest free positions. -/
def State.putInst (s : State) (d : Nat) (l : Launch) (n : Node) (i : Inst) (c : Nat) : State :=
  let k : CoreId := ⟨d, c⟩
  let x := (s.freeSlots k).headD 0
  let map := (List.range n.tiles).map (fun t => (x, t, (s.freeTiles k).getD t 0))
  let r := s.takeSet d i
  let s := r.2.setTask (k.ctx x) (some (l.taskOf n i r.1))
  let s := s.modCore k (fun y => { y with
    tileMap := y.tileMap ++ map, images := if y.images.any (fun e => e.1 == l.image n) then y.images else y.images ++ [(l.image n, false)] })
  s.modDie d (fun y => { y with insts := y.insts.map (fun j => if j.same i then { j with status := .placed c x, set := some r.1 } else j) })

/-- Where an instance can be placed, past some waiting entries: the launch, the node and the core. -/
def State.placeFor (s : State) (d : Nat) (i : Inst) (passed : List Inst) : Option (Launch × Node × Nat) :=
  let barred := ((passed.filter (fun h => decide (64 ≤ h.bypass) && decide (i.cls ≤ h.cls))).map (fun h => h.cand)).flatten
  if i.set.isNone ∧ (s.freeSet d).isNone then none
  else
    match s.launches.find? (fun l => l.seq == i.launch) with
    | none => none
    | some l =>
      match l.body.nodes[i.node]? with
      | none => none
      | some n => (s.placeCore d l n i barred).map (fun c => (l, n, c))

/-- A later entry was placed on a core that is a candidate of this one. -/
def Inst.bypassed (i : Inst) (c : Nat) : Inst := if i.cand.contains c then { i with bypass := i.bypass + 1 } else i

/-- Scans the pool in order and places every entry that Place accepts (14 R319). -/
def State.scanPool (s : State) (d : Nat) : List Inst → List Inst → State
  | [], _ => s
  | i :: t, passed =>
    match s.placeFor d i passed with
    | none => s.scanPool d t (passed ++ [i])
    | some (l, n, c) =>
      let s := (s.putInst d l n i c).tick
      let s := s.modDie d (fun y => { y with insts := y.insts.map (fun j => if passed.any j.same then j.bypassed c else j) })
      s.scanPool d t (passed.map (fun j => j.bypassed c))

/-- PLACE: one scan of a die's ready pool, which uses its predecessor counts. -/
def execPlace (die : Nat) (s : State) : Res :=
  if (s.die die).resetAt.isSome || decide (s.mode ≠ .running) then .next s
  else if (s.failedCount die).isSome then .next (s.checkCounts die)
  else let s := s.settleDie die; .next (s.scanPool die (s.readyPool die) [])

/-! ### The start of a task (14 R320-R321) -/

/-- The level indices and extents of a task's context. -/
def levelRegs (n : Node) (point : List Nat) : Vector Nat 8 × Vector Nat 8 :=
  let ranks := (List.range n.levels.length).map (fun l => ((n.levels.take l).filter (fun x => x.domain != 4)).length)
  let lvx := (n.levels.zip ranks).map (fun e => if e.1.domain = 4 then 0 else point.getD e.2 0)
  let lve := n.levels.map (fun x => x.extent)
  (tabulate 8 (fun l => lvx.getD l 0), tabulate 8 (fun l => lve.getD l 0))

/-- The context a task starts with. -/
def Task.entryCtx (t : Task) (n : Node) : Ctx :=
  { pc := t.entry, g := setNth (Vector.replicate 32 0) 1 t.arg, lvx := (levelRegs n t.point).1, lve := (levelRegs n t.point).2,
    sched := BitVec.ofNat 64 (t.launch % 2 ^ 32 * 2 ^ 32 + t.cls) }

/-- The node of a task. -/
def State.nodeOfTask (s : State) (t : Task) : Option Node :=
  match s.launches.find? (fun l => l.seq == t.launch) with
  | some l => l.body.nodes[t.node]?
  | none => none

/-- Starts a task: its entry state, its tiles zeroed; a failed image load traps at its first instruction. -/
def State.startTask (s : State) (c : CtxId) (t : Task) : State :=
  let n := (s.nodeOfTask t).getD ⟨[], 0, 0, 0, 0, 0, 0, 0, none⟩
  let s := (s.setCtx c { t.entryCtx n with slotn := c.ctx }).setTask c (some { t with started := true, loadFail := none })
  let s := (List.range t.tiles).foldl (fun s i => s.zeroTile c i) s
  match t.loadFail with
  | some (cause, v) => s.trap c 0 cause v
  | none => s

/-- Whether an image is loaded on a core. -/
def Core.loaded (k : Core) (i : Image) : Bool := k.images.contains (i, true)

/-- Loads a task's image into I-space, as the docent does. -/
def State.loadImage (s : State) (c : CtxId) (t : Task) (bytes : List Byte) : State :=
  let s := s.clearRange (ispaceAt c.coreId (2 * t.image.ibase)) (2 * (t.image.ilen + 1))
  let s := s.storeAt (ispaceAt c.coreId (2 * t.image.ibase)) bytes
  s.modCore c.coreId (fun k => { k with images := k.images.map (fun e => if e.1 = t.image then (e.1, true) else e) })

/-- TASK_START: the docent loads the image unless the core holds it; the load waits placed while it is parked (14 R320, 15 R328). -/
def execTaskStart (c : CtxId) (s : State) : Res :=
  match s.task c with
  | none => .next s
  | some t =>
    if t.started || t.frozen || t.preempting || t.preempted || !s.coreRuns c.coreId || (s.die c.die).parked.any (fun p => p.owner == .image c) then .next s
    else if t.loadFail.isSome || (s.core c.coreId).loaded t.image then .next (s.startTask c t)
    else
      match s.mapVA c.coreId .scu t.asid t.image.imgva (2 * (t.image.ilen + 1)) true false with
      | .fault cause va s' => .next (s'.startTask c { t with loadFail := some (cause, zx va) })
      | .busy s' => .next s'
      | .absent va kind s' => .next (s'.park c.die va t.asid kind false (.image c))
      | .ok as s' =>
        match s'.eccHit as with
        | some bad => .next (s'.startTask c { t with loadFail := some (0x08, zx (t.image.imgva + as.idxOf bad)) })
        | none => .next ((s'.loadImage c t (as.map s'.rd)).startTask c t)

/-! ### The end of a task (01 R18, R20, 14 R318) -/

/-- The next point of the slot-bound levels, innermost fastest; none after the last. -/
def nextSlotPoint (t : Task) (lvx : Vector Nat 8) : Option (Vector Nat 8) :=
  let ls := t.slotLevels.reverse
  match nestNext (ls.map (fun e => lvx.getD e.1 0)) (ls.map (fun e => e.2)) with
  | none => none
  | some idx => some ((ls.zip idx).foldl (fun v e => setNth v e.1.1 e.2) lvx)

/-- Whether a task of a node under a point is still to end on some die. -/
def State.pointAlive (s : State) (l : Launch) (node : Nat) (pre : List Nat) : Bool :=
  l.dies.any (fun d =>
    if l.pending.contains d then
      (match l.body.nodes[node]? with | some n => (instOf l.cores l.dies d n).any (fun e => e.1.take pre.length == pre) | none => false)
    else (s.die d).insts.any (fun i => i.launch == l.seq && i.node == node && i.point.take pre.length == pre && !i.isOver))

/-- Publishes the writes to unbound regions at the scope of every level whose point has ended its last task (01 R20). -/
def State.publishLevels (s : State) (l : Launch) (n : Node) (node : Nat) (point : List Nat) : State :=
  (numbered n.spread).foldl (fun s e =>
    if s.pointAlive l node (point.take (e.1 + 1)) then s
    else (s.publishPoint l.seq node (point.take (e.1 + 1)) e.2.scope).send (.publish l.seq e.1 e.2.scope (point.take (e.1 + 1)))) s

/-- TASK_END: a parked task runs its next slot-level point, or ends: its writes are published, its successors' counts fall and its slot is
free. The context keeps its registers until the next task starts in it (11 R258). A task that parks in its
own handler while it is frozen ends when it is no longer frozen, which is the model's choice (log entry 115). -/
def execTaskEnd (c : CtxId) (s : State) : Res :=
  match s.task c with
  | none => .next s
  | some t =>
    if !t.parked || t.frozen || t.preempting || t.preempted then .next s
    else
      let x := s.ctx c
      match nextSlotPoint t x.lvx with
      | some lvx =>
        .next ((s.setTask c (some { t with parked := false })).setCtx c
          { x with pc := t.entry, g := setNth (Vector.replicate 32 0) 1 t.arg, k := Vector.replicate 16 false, b := Vector.replicate 4 0, lvx := lvx,
                   variant := 0, xfer := none, blocked := false })
      | none =>
        let s := s.modDie c.die (fun y => { y with insts := y.insts.map (fun i =>
          if i.onSlot c.core c.ctx then { i with status := .ended, set := none } else i) })
        let s := match s.launches.find? (fun l => l.seq == t.launch), s.nodeOfTask t with
          | some l, some n => s.publishLevels l n t.node t.point
          | _, _ => s
        .next (((((s.succeed c.die t.launch t.node).clearSlot c).setCtx c x.ended).checkCounts c.die).settleDie c.die)

/-! ### Completion (14 R310, 16 R362) -/

/-- What a completed launch leaves on its queue: DONE may move on, and a failed one stops it with 0x40 (14 R292). -/
def State.finishQueue (s : State) (l : Launch) : State :=
  let q := l.q.queue
  let s := s.modQueue q (fun x =>
    ({ x with curLaunches := x.curLaunches.filter (fun y => y != l.seq),
              pendingDone := x.pendingDone.map (fun e => (e.1, e.2.1.filter (fun y => y != l.seq), e.2.2 || (l.failed && e.2.1.contains l.seq))) }
      : Queue).drain)
  if !l.failed then s
  else if (s.queue q).state = 1 then
    let s := s.modQueue q (fun x => { x with stopFor := some l.q.epos })
    if (s.queue q).offer.isSome then s else s.boundary q
  else ((s.modQueue q (fun x => { x with reason := 0x40, epos := l.q.epos })).mapError q).send (.irqAdmissions q)

/-- LAUNCH_COMPLETE: once every die has reported a launch, its words are freed and its queue is told; queues that wait for a launch to
complete on one of its dies are runnable again. -/
def execLaunchComplete (seq : Nat) (s : State) : Res :=
  let s := (List.range 12).foldl State.settleDie s
  match s.launches.find? (fun l => l.seq == seq) with
  | none => .next s
  | some l =>
    if !(l.dies.all l.done.contains) then .next s
    else
      let s : State := { s with launches := s.launches.filter (fun m => m.seq != seq), gallery := s.gallery.filter (fun z => z.launch != seq) }
      let s := s.finishQueue l
      let s := (Table.keys s.queues).foldl (fun s q => s.modQueue q (fun x =>
        match x.wait with
        | .busy ds => if ds.any l.dies.contains then { x with wait := .no } else x
        | _ => x)) s
      .next (s.pollQueues).rewake

end Sys2Proof.Machine
end

