-- ==== Sys2Proof/Machine/Completions.lean ====
section
/-! DEFINITION. What completes on its own for an agent: waits at the vault, copies, posted writes, replies (03 R60-R65, 06 R157, 15
R339-R341), and the verdicts on parked accesses (15 R327-R329). -/

namespace Sys2Proof.Machine

/-! ### Waits at the vault (03 R65) -/

/-- Runs one of the waits on a vault word. -/
def runWait (i : Instr) (s : State) : Res :=
  match i with
  | .semwait gd a b => execSemwait gd a b s
  | .semwdec gd a b => execSemwdec gd a b s
  | .mwait gd k n c => execMwait gd k n c s
  | .cwait gd k n c => execCwait gd k n c s
  | .xwait gd k n c => execXwait gd k n c s
  | .vwait e c w => execVwait e c w s
  | .pailw h c => execPailw h c s
  | .pailf h c => execPailf h c s
  | .xred gd d h t => execXred gd d h t s
  | _ => .next s

/-- Whether an agent is blocked on a vault word. -/
def State.vaultBlocked (s : State) (a : AgentId) : Bool :=
  if a.kind = .scu then (s.ctx a.ctx).blocked
  else
    match (s.stream a).wait with
    | .vault _ => true
    | .pail _ => true
    | _ => false

/-- VAULT_WAIT_COMPLETE: a blocked wait is tried again, and completes once the word satisfies it and its bucket affords it, unless the
bucket holds another slot of the engine (17 R380). A step takes it as a turn of the agent, in the engine's cycles and order (Turn). -/
def execVaultWaitComplete (ag : AgentId) (s : State) : Res :=
  match s.nextOf ag with
  | some i =>
    if s.vaultBlocked ag && Instr.vaultWait i && !s.heldByOther ag then
      let s : State := { s with agent := ag }
      s.afford ag (runWait i s)
    else .next s
  | none => .next s

/-! ### Copies (06 R157) -/

/-- What one side of a copy comes to. -/
def State.copySide (s : State) (c : CtxId) (isS : Bool) (a n : Nat) (w : Bool) : MapRes :=
  if isS then .ok (s.sAddrs c a n) s else s.mapVA c.coreId .scu (s.asid c) a n (!w) w

/-- A fault of a copy: the byte count before its first failing byte, the cause and the failing address. -/
structure CopyFault where
  count : Nat
  cause : Nat
  va : Nat

/-- The bytes before the first page of a side that is absent or denied, if one is. -/
def MapRes.stops (r : MapRes) (base : Nat) : Option Nat :=
  match r with
  | .fault _ va _ => some (va - base)
  | .absent va _ _ => some (va - base)
  | _ => none

/-- Whether the destination of a copy stops at an earlier byte than its source. -/
def destFirst (src dst : Option Nat) : Bool :=
  match src, dst with
  | some n, some m => decide (m < n)
  | none, some _ => true
  | _, none => false

/-- The address one byte of a side has, if its page gives it. -/
def State.copyByte (s : State) (c : CtxId) (isS : Bool) (a : Nat) (w : Bool) : Option Nat :=
  match s.copySide c isS a 1 w with
  | .ok as _ => as.head?
  | _ => none

/-- Ends a copy that faulted: the bytes before the count are copied, and each later one is or is not (06 R157). -/
def State.failCopy (s : State) (c : CtxId) (y : Copy) (f : CopyFault) : State :=
  let cells := (List.range y.n).filterMap (fun i =>
    match s.copyByte c y.dstS (y.dst + i) true, s.copyByte c y.srcS (y.src + i) false with
    | some d, some q => if i < f.count ∨ Config.freeBit (s.freeCtr + i) then some (d, s.rd q) else none
    | _, _ => none)
  let s := { s.store cells with freeCtr := s.freeCtr + y.n }
  s.modCtx c (fun x => { x with copies := x.copies.map (fun z => if z = y then { z with fault := some (f.cause, zx f.va, f.count) } else z) })

/-- Whether a copy waits behind a translation. -/
def State.copyParked (s : State) (c : CtxId) (reg : Nat) : Bool := (s.die c.die).parked.any (fun p => p.owner == .copy c reg)

/-- Stops a copy at a side's first bad page: an absent page parks it, a denied one ends it. -/
def State.stopCopy (s : State) (c : CtxId) (y : Copy) (r : MapRes) (base : Nat) (w : Bool) : State :=
  match r with
  | .absent va kind s' => s'.park c.die va (s'.asid c) kind w (.copy c y.reg)
  | .fault cause va _ => s.failCopy c y ⟨va - base, cause, va⟩
  | _ => s

/-- The reader of a context's copies, which are ordered with no other access of it (06 R157). -/
def copier (c : CtxId) : AgentId := ⟨c.die, c.core, 8 + c.ctx, .scu⟩

/-- Performs a copy; of two bad pages the one at the lower byte stops it, the source's at a tie. -/
def State.performCopy (s : State) (c : CtxId) (y : Copy) : State :=
  match s.copySide c y.srcS y.src y.n false, s.copySide c y.dstS y.dst y.n true with
  | .busy _, _ => s
  | _, .busy _ => s
  | .ok ss s1, .ok ds _ =>
    match s1.eccHit ss with
    | some bad => s1.failCopy c y ⟨ss.idxOf bad, 0x08, y.src + ss.idxOf bad⟩
    | none =>
      let cs := ds.zip (s1.glance (copier c) 0 ss)
      (s1.writeCopy c y.reg (spotsAt y.dstS y.dst cs)).modCtx c (fun x =>
        ({ x with copies := x.copies.erase y, unread := if s1.lingers cs then y.reg :: x.unread else x.unread }).setReg y.reg (zx y.n))
  | r, q => if destFirst (r.stops y.src) (q.stops y.dst) then s.stopCopy c y q y.dst true else s.stopCopy c y r y.src false

/-- CPYT_COMPLETE: a pending copy is performed and its byte count written; a fault stays with the token until it is touched. -/
def execCpytComplete (at_ : CtxId) (reg : Nat) (s : State) : Res :=
  match (s.ctx at_).copies.find? (fun y => y.reg == reg && y.fault.isNone) with
  | none => .next s
  | some y =>
    if s.copyParked at_ reg || s.spanMoving at_ (some (y.dstS, y.dst)) y.n || s.spanMoving at_ (some (y.srcS, y.src)) y.n then .next s
    else .next (s.performCopy at_ y)

/-! ### Acknowledgements of posted writes (03 R60-R61) -/

/-- Sends what an XE's transfers still have to post or to ask for, and ends those that are acknowledged. -/
def State.pushXe (s : State) (c : CtxId) : State :=
  let a := c.agent .xe
  (s.stream a).transfers.foldl (fun s (t : Transfer) =>
    if t.begun then s.pushPosted a t else if t.pieces.isEmpty || t.fault.isSome then s else s.askMore a t) s

/-- Sends what the engines of a core still have to send. -/
def State.pushCore (s : State) (c : CoreId) : State := (CoreId.slots c).foldl (fun s d => (s.pushVe d).pushXe d) s

/-- Reports a refused posted write to the agent that issued it, or to the docent when its task has ended. Of several refused ones the
report names first the one whose refusal came first: the manual does not say whether the first failed write is that or the first issued,
and this is the model's choice (log entry 82). -/
def State.reportPosted (s : State) (p : Posted) : State :=
  let v := windowVal (decide (16 ≤ p.win)) (if 16 ≤ p.win then p.win - 16 else p.win) p.off
  let c := p.agent.ctx
  let there := match s.task c with | some t => t.launch == p.launch | none => c.ctx == 4
  if p.drop then s
  else if !there then s.modCtx (p.agent.coreId.ctx 4) (fun x => { x with reports := x.reports ++ [v] })
  else if p.agent.kind = .scu then s.modCtx c (fun x => { x with reports := x.reports ++ [v] })
  else s.modStream p.agent (fun x => { x with reports := x.reports ++ [v] })

/-- A posted write is acknowledged or refused: the window's count falls, and what its allowance held may issue. -/
def State.ackPosted (s : State) (c : CoreId) (id : Nat) (ok : Bool) : State :=
  match (s.core c).posted.find? (fun p => p.id == id) with
  | none => s
  | some p =>
    let s := s.modCore c (fun k => { k with posted := k.posted.filter (fun q => q.id != id) })
    let s : State := { s with reqs := s.reqs.filter (fun r => r.owner != .posted c id) }
    let s := if ok then s else s.reportPosted p
    (s.progress p.agent).pushCore c

/-! ### Replies, timeouts and retries (15 R339-R341) -/

/-- Of two refused pieces the first of the access counts (16 R356). -/
def firstRefused (x : Option (Nat × Word)) (v : Word) : Option (Nat × Word) :=
  match x with
  | some (0x07, u) => some (0x07, if v.toNat < u.toNat then v else u)
  | some f => some f
  | none => some (0x07, v)

/-- The value TVAL takes for a window byte of a VE access, by its row byte. -/
def VeAccess.windowAt (x : VeAccess) (m : Nat) : Word :=
  match x.bytes.find? (fun b => b.1 == m) with
  | some b => let off := wfld b.2.1 0 32 - 0x80000000; windowVal false (off / 0x08000000) (off % 0x08000000)
  | none => 0

/-- A window read of an engine is answered. -/
def State.answerRead (s : State) (a : AgentId) (id off : Nat) (ok : Bool) (data : List Byte) : State :=
  if a.kind = .ve then
    s.modVe a.ctx (fun v => { v with pend := v.pend.map (fun (x : VeAccess) =>
      if x.id = id then
        { x with want := x.want.filter (fun w => w.1 != off), got := if ok then x.got ++ [(off, data)] else x.got,
                 failed := if ok then x.failed else firstRefused x.failed (x.windowAt off) }
      else x) })
  else
    s.modTransfer a id (fun t =>
      { t with want := t.want.filter (fun w => w.1 != off), got := if ok then t.got ++ [(off, data)] else t.got,
               fault := if ok then t.fault else firstRefused t.fault (windowVal false (off / 0x08000000) (off % 0x08000000)) })

/-- Ends a request of an agent or of a core with its answer. An atomic that has been performed at its home is final (16 R362). -/
def State.answerOwn (s : State) (r : Req) (ok : Bool) (data : List Byte) : State :=
  let s : State := { s with reqs := s.reqs.filter (fun q => q != r) }
  match r.owner with
  | .scu c =>
    let s := if ok && (s.ctx c).remote.any (fun m => m.rmw && m.tag == r.tag && m.gen == r.gen) then s.spoil c else s
    s.modCtx c (fun x => { x with remote := x.remote.map (fun m =>
      if m.tag = r.tag ∧ m.gen = r.gen then { m with answer := some (if ok then some data else none) } else m) })
  | .read a id off => s.answerRead a id off ok data
  | .xcad a i =>
    let s := if ok then s.spoil a.ctx else s
    (s.progress a).modStream a (fun x => { x with xcads := match x.xcads[i]? with
      | some q => setItem x.xcads i { q with answer := some (if ok then some (BitVec.ofNat 64 (leNat (data.take q.size))) else none) }
      | none => x.xcads })
  | .posted c id => s.ackPosted c id ok
  | .combined _ => s

/-- Counts a late reply of a station. -/
def State.lateReply (s : State) (station : Nat) : State :=
  if station < 12 then s.modDie station (fun d => { d with late := min (d.late + 1) 0xFFFFFFFF })
  else if station = 15 then { s with cur := { s.cur with late := min (s.cur.late + 1) 0xFFFFFFFF } } else s

/-- The order in which combined requests are answered: arrival, clockwise first, then source id, package × 16 + station (15 R341). -/
def combineBefore (x y : Nat × Bool × Nat × Nat × Word) : Bool :=
  decide (x.1 < y.1) || (x.1 == y.1 && ((x.2.1 && !y.2.1) || (x.2.1 == y.2.1 && decide (x.2.2.1 ≤ y.2.2.1))))

/-- Inserts a request in that order. -/
def combineInsert (x : Nat × Bool × Nat × Nat × Word) : List (Nat × Bool × Nat × Nat × Word) → List (Nat × Bool × Nat × Nat × Word)
  | [] => [x]
  | y :: t => if combineBefore x y then x :: y :: t else y :: combineInsert x t

/-- The bridge station answers a member of a combined request: one of this package under its tag and generation, late where its requester has given
it up; one of another package over the fabric. -/
def State.answerMember (s : State) (src id : Nat) (ok : Bool) (old : Word) : State :=
  if src / 16 = s.pkg ∧ src % 16 < 12 then
    match s.reqs.find? (fun r => r.bridged && r.station == src % 16 && r.tag == id / 16 && r.gen == id % 16) with
    | some r => s.answerOwn r ok (natLe 8 old.toNat)
    | none => s.lateReply (src % 16)
  else if ok then s.send (.splitReply (src / 16) id old)
  else s.send (.reply (src / 16) false [])

/-- Gives every member of a combined request its old value, from the value at the home on. -/
def State.splitReplies (s : State) (size : Nat) : Word → List (Nat × Bool × Nat × Nat × Word) → State
  | _, [] => s
  | old, x :: t =>
    (s.answerMember x.2.2.1 x.2.2.2.1 true old).splitReplies size (BitVec.ofNat 64 ((old + x.2.2.2.2).toNat % 2 ^ (8 * size))) t

/-- A combined request is answered; a refusal fails every member. -/
def State.answerCombined (s : State) (id : Nat) (ok : Bool) (data : List Byte) : State :=
  match s.combining.find? (fun w => w.id == id) with
  | none => s
  | some w =>
    let s : State := { s with combining := s.combining.filter (fun x => x.id != id) }
    let l := w.reqs.foldr combineInsert []
    if ok then s.splitReplies w.size (BitVec.ofNat 64 (leNat (data.take w.size))) l
    else l.foldl (fun s x => s.answerMember x.2.2.1 x.2.2.2.1 false 0) s

/-- Ends a request with its answer. -/
def State.answerReq (s : State) (r : Req) (ok : Bool) (data : List Byte) : State :=
  match r.owner with
  | .combined id => ({ s with reqs := s.reqs.filter (fun q => q != r) } : State).answerCombined id ok data
  | _ => s.answerOwn r ok data

/-- The cycle in which a request times out: TOUT after it was sent, and later by what it is held at a die of another package (16 R364). -/
def State.deadline (s : State) (r : Req) : Nat :=
  r.at_ + s.stationTout r.station + (if s.leaves r.path then Config.heldFor r.path.tpkg r.path.tdie r.at_ else 0)

/-- Whether a request is past its timeout. -/
def State.timedOut (s : State) (r : Req) : Bool := decide (s.deadline r ≤ s.cycle)

/-! ### The order of slots (15 R333) -/

/-- Whether two requests are of one core to one die and name a common byte. -/
def Req.meets (p q : Req) : Bool :=
  p.path == q.path && p.path.core.isSome
    && (match p.span, q.span with
        | some (a, n), some (b, m) => decide (a < b + m) && decide (b < a + n)
        | _, _ => false)

/-- Whether an earlier slot that has bounced holds a later one to one of its bytes, which is not taken before it. -/
def State.behindBounced (s : State) (r : Req) : Bool :=
  (s.reqs.takeWhile (fun q => q != r)).any (fun q => q.retryAt.isSome && q.meets r)

/-- A slot has been taken: the earlier ones of its core to one of its bytes had been taken before it. -/
def State.slotTaken (s : State) (r : Req) : State :=
  let before := (s.reqs.takeWhile (fun q => q != r)).filter (fun q => q.meets r)
  if before.isEmpty then s else { s with reqs := s.reqs.map (fun q => if before.contains q then { q with taken := true } else q) }

/-- Whether an answer to a request comes through: its slot is not lost, it is not the bridge's to answer, no link on its way is closed, and no
bounced slot holds it. -/
def State.mayAnswer (s : State) (r : Req) : Bool :=
  !r.lost && !r.bridged && !s.linkStopped r.station r.path && !s.behindBounced r

/-! ### Notifies to the package's own admissions (15 R335, 14 R293) -/

/-- The 32 bytes of a work-queue notify that a posted write to the package's own admissions carries. -/
def State.noteOf (s : State) (r : Req) : List Byte :=
  match r.owner with
  | .posted c id => match (s.core c).posted.find? (fun p => p.id == id) with | some p => p.note | none => []
  | _ => []

/-- Admissions judges a notify as it is laid out (14 R293). -/
def State.judgeNote (s : State) (b : List Byte) : State :=
  let w (i n : Nat) : Nat := leNat ((b.drop i).take n)
  match execNotify (w 0 4 % 1024) (w 4 4) (zx (w 8 8)) (zx (w 16 8)) (w 0 4 / 1024 != 0 || w 24 8 != 0) s with
  | .next s' => s'
  | _ => s

/-- A request that has not been answered in time is given up. Whether an atomic, or a notify to the package's own admissions, has been performed by then is
open (log entry 109): one denied or still held at its source has not. -/
def State.giveUp (s : State) (r : Req) : State :=
  let sent := !r.denied && r.retryAt.isNone
  let note := s.noteOf r
  let open_ : Option (State → State) :=
    match r.owner with
    | .scu c => if (s.ctx c).remote.any (fun m => m.rmw && m.tag == r.tag && m.gen == r.gen) then some (fun s => s.spoil c) else none
    | .xcad a _ => some (fun s => s.spoil a.ctx)
    | .posted _ _ => if note.isEmpty then none else some (fun s => s.judgeNote note)
    | _ => none
  match open_ with
  | some f => if sent then (if Config.freeBit s.freeCtr then (f s.tick).answerReq r false [] else s.tick.answerReq r false []) else s.answerReq r false []
  | none => s.answerReq r false []

/-- A reply to an outstanding request: one at TOUT or later is dropped and counted as late; a request that is denied on its way has a denial for its
answer. A notify to the package's own admissions is judged when its acknowledgement comes, which is never a refusal; while no supervisor is active to judge it under DUTY
bit 7 it waits (13 R277). -/
def State.replyTo (s : State) (r : Req) (ok : Bool) (data : List Byte) : State :=
  let note := s.noteOf r
  if s.timedOut r then (s.giveUp r).lateReply r.station
  else if r.denied then s.answerReq r false []
  else if !s.mayAnswer r then s
  else if note.isEmpty then (s.slotTaken r).answerReq r ok data
  else if s.duty.testBit 7 && s.cur.takeover then s
  else (s.judgeNote note).answerReq r true []

/-- FABRIC_REPLY: a reply completes the request whose tag and generation it carries; one that carries no request's tag is dropped and counted as
late. -/
def execFabricReply (station tag gen : Nat) (ok : Bool) (data : List Byte) (s : State) : Res :=
  match s.reqs.find? (fun r => r.station == station && r.tag == tag && r.gen == gen) with
  | none => .next (s.lateReply station)
  | some r => .next (s.replyTo r ok data)

/-- WINDOW_WRITE_ACK: the reply to an outstanding posted write. -/
def execWindowWriteAck (core : CoreId) (id : Nat) (ok : Bool) (s : State) : Res :=
  match s.reqs.find? (fun r => r.owner == .posted core id) with
  | none => .next s
  | some r => .next (s.replyTo r ok [])

/-- REQUEST_TIMEOUT: a request without a reply within TOUT fails. -/
def execRequestTimeout (station tag : Nat) (s : State) : Res :=
  match s.reqs.find? (fun r => r.station == station && r.tag == tag) with
  | none => .next s
  | some r => if s.timedOut r then .next (s.giveUp r) else .next s

/-- Changes a request. -/
def State.modReq (s : State) (r : Req) (f : Req → Req) : State := { s with reqs := s.reqs.map (fun q => if q = r then f q else q) }

/-- A request bounced for the n-th time is retried after 256 x 2^min(n, 7) cycles (15 R339; log entry 24). -/
def State.bounce (s : State) (r : Req) : State :=
  s.modReq r (fun q => { q with bounces := q.bounces + 1, retryAt := some (s.cycle + 256 * 2 ^ min (q.bounces + 1) 7) })

/-- A bounced slot that is taken or given up holds the later ones of its core no more (15 R333). -/
def State.settleSlot (s : State) (r : Req) : State :=
  let s := s.modReq r (fun q => { q with retryAt := none })
  match r.path.core with
  | some c => s.pushCore c
  | none => s

/-- A bounced slot that is given up is lost; it holds the later ones no more. -/
def State.discardSlot (s : State) (r : Req) : State :=
  let s := s.modReq r (fun q => { q with retryAt := none, lost := true })
  match r.path.core with
  | some c => s.pushCore c
  | none => s

/-- SLOT_RETRY: a slot refused busy twice bounces; once its backoff has passed it is sent again, to be taken or to bounce again. A link that is
closed takes no slot (15 R342-R343). One that a later slot to the same byte shows taken, one that is lost or denied, and one that has reached the
bridge does not bounce. -/
def execSlotRetry (station tag : Nat) (busy : Bool) (s : State) : Res :=
  match s.reqs.find? (fun r => r.station == station && r.tag == tag) with
  | none => .next s
  | some r =>
    match r.retryAt with
    | none =>
      if (busy || s.linkStopped r.station r.path) && r.bounces == 0 && !r.taken && !r.lost && !r.denied && !r.bridged then .next (s.bounce r)
      else .next s
    | some t =>
      if s.cycle < t then .next s
      else if busy || s.linkStopped r.station r.path then .next (s.bounce r)
      else .next (s.settleSlot r)

/-- SLOT_AGE_DISCARD: a slot older than twice TOUT is discarded, and is sent no more. -/
def execSlotAgeDiscard (station tag : Nat) (s : State) : Res :=
  match s.reqs.find? (fun r => r.station == station && r.tag == tag) with
  | none => .next s
  | some r => if s.cycle ≤ r.at_ + 2 * s.stationTout station then .next s else .next (s.discardSlot r)

/-! ### Combining windows (15 R341) -/

/-- A combined request for a die of the package: admitted under its first member's package (log entry 109), it is performed at the die; a die under
reset holds it (16 R364). -/
def State.performCombined (s : State) (w : Combining) (sum : Word) : State :=
  let src := match w.reqs.foldr combineInsert [] with | x :: _ => x.2.2.1 / 16 | [] => s.pkg
  let as := rangeFrom (scratchAt w.tdie w.addr) w.size
  if (s.die w.tdie).resetAt.isSome then s
  else if !s.admits w.tdie src w.key w.addr w.size true true then s.answerCombined w.id false []
  else (s.storeRmw (as.zip (natLe w.size (leNat (as.map s.rd) + sum.toNat)))).answerCombined w.id true (as.map s.rd)

/-- Forwards a combining window's requests as one FADD, once a tag is free; one for a die of the package goes no further. -/
def State.forwardCombined (s : State) (w : Combining) : State :=
  let sum := BitVec.ofNat 64 (((w.reqs.map (fun (x : Nat × Bool × Nat × Nat × Word) => x.2.2.2.2)).foldl (· + ·) 0).toNat % 2 ^ (8 * w.size))
  if w.tpkg = s.pkg ∧ w.tdie < 12 then s.performCombined w sum
  else match s.freeTag 15, s.request 15 w.key ⟨none, w.tpkg, w.tdie⟩ (.combined w.id) (.atomic w.tpkg w.tdie w.addr w.size 0 sum 0 true 15) with
  | some t, some s => { s with combining := s.combining.map (fun x => if x.id = w.id then { x with sent := some t } else x) }
  | _, _ => s

/-- COMBINING_WINDOW_CLOSE: 64 reference cycles after it opened, or when it holds 16 requests. -/
def execCombiningWindowClose (id : Nat) (s : State) : Res :=
  match s.combining.find? (fun w => w.id == id) with
  | none => .next s
  | some w =>
    if w.sent.isSome || (decide (s.cycle < w.openAt + 64) && decide (w.reqs.length < 16)) then .next s else .next (s.forwardCombined w)

/-! ### Verdicts on parked accesses (15 R328) -/

/-- Lets a queue's held offer whose body covers a parked read be answered anew. -/
def State.answerHeld (s : State) (d : Nat) (p : ParkEntry) (a : Answer) : State :=
  ((Table.keys s.queues).foldl (fun s q =>
    match (s.queue q).offer with
    | some o =>
      if o.asid = p.asid ∧ o.q.body ≤ p.va ∧ p.va < o.q.body + 64 * o.q.bodyLen ∧ o.answers.contains (d, .held) then s.answer q d a none else s
    | none => s) s).rewake

/-- Changes the parked access or transfer of an engine. -/
def State.wakeAccess (s : State) (a : AgentId) (id : Nat) (f : Option (Nat × Word)) : State :=
  if a.kind = .ve then
    s.modVe a.ctx (fun v => { v with pend := v.pend.map (fun (x : VeAccess) =>
      if x.id = id then { x with parked := false, failed := x.failed.or f } else x) })
  else s.modTransfer a id (fun t => { t with parked := false, fault := t.fault.or f })

/-- An engine's instruction that waited for its own access goes on. -/
def State.wakeStream (s : State) (a : AgentId) : State := s.modStream a (fun x => if x.wait = .parked then { x with wait := .none } else x)

/-- A retry verdict on one parked access: it walks again. -/
def State.retryParked (s : State) (d : Nat) (p : ParkEntry) : State :=
  match p.owner with
  | .scu c => s.modCtx c (fun x => { x with parked := .again })
  | .copy _ _ => s
  | .engine a id => if id = 0 then s.wakeStream a else s.wakeAccess a id none
  | .cellar c tag _ => s.modEntry c tag (fun e => { e with parked := false })
  | .registrar => s.answerHeld d p .none
  | .image _ => s

/-- The copy a parked entry belongs to fails. -/
def State.failParkedCopy (s : State) (c : CtxId) (reg : Nat) (p : ParkEntry) (cause : Nat) : State :=
  match (s.ctx c).copies.find? (fun y => y.reg == reg && y.fault.isNone) with
  | some y => s.failCopy c y ⟨p.va - (if p.wr then y.dst else y.src), cause, p.va⟩
  | none => s

/-- A fail verdict on one parked access: it faults. -/
def State.failParked (s : State) (d : Nat) (p : ParkEntry) (cause : Nat) : State :=
  match p.owner with
  | .scu c => (s.modCtx c (fun x => { x with parked := .no })).trap c 0 cause (zx p.va)
  | .copy c reg => s.failParkedCopy c reg p cause
  | .engine a id =>
    if id = 0 then (s.wakeStream a).trapAgent a cause (zx p.va) else s.wakeAccess a id (some (cause, zx p.va))
  | .cellar c tag _ => (s.modEntry c tag (fun e => { e with parked := false })).failEntry c tag (fun _ => false)
  | .registrar => s.answerHeld d p (.refuse 0x10)
  | .image c => s.modTask c (fun t => { t with loadFail := some (cause, zx p.va) })

/-- FRES: the accesses parked on the page and ASID of an entry take the verdict; those still without an entry are posted as room
allows. -/
def State.verdict (s : State) (d idx : Nat) (f : State → ParkEntry → State) : State :=
  match (s.die d).parked.find? (fun p => p.index == some idx) with
  | none => s
  | some e =>
    let on (p : ParkEntry) : Bool := p.va / 65536 == e.va / 65536 && p.asid == e.asid
    let l := (s.die d).parked.filter on
    let s := s.modDie d (fun y => { y with parked := y.parked.filter (fun p => !on p) })
    (l.foldl f s).postParked d

/-- The verdict 0, retry, of FRES. -/
def State.fresRetry (s : State) (d idx : Nat) : State := s.verdict d idx (fun s p => s.retryParked d p)
/-- The verdicts 1 and 2 of FRES, which fail with a cause. -/
def State.fresFail (s : State) (d idx cause : Nat) : State := s.verdict d idx (fun s p => s.failParked d p cause)

def execFresRetry (die idx : Nat) (s : State) : Res := s.bySupervisor (fun s => s.fresRetry die idx)
def execFresFail05 (die idx : Nat) (s : State) : Res := s.bySupervisor (fun s => s.fresFail die idx 0x05)
def execFresFail06 (die idx : Nat) (s : State) : Res := s.bySupervisor (fun s => s.fresFail die idx 0x06)

/-- A fill of the die TLB: a legal leaf enters it; a malformed one is discarded and the fault is posted again with KIND 1 (15 R329). -/
def State.fillTlb (s : State) (die va asid level : Nat) (leaf : Word) : State :=
  if wbit leaf 0 && wbit leaf 1 && !pteMalformed leaf level && decide (2 ≤ level) && decide (level ≤ 4) then
    s.modDie die (fun d => { d with tlb := (⟨asid, va, level, leaf⟩ :: d.tlb).take 16384 })
  else
    let hit (p : ParkEntry) : Bool := p.va / 65536 == va / 65536 && p.asid == asid
    (s.modDie die (fun d => { d with parked := d.parked.map (fun p => if hit p then { p with kind := 1, index := none } else p) })).postParked die

def execTlbfill (die va asid level : Nat) (leaf : Word) (s : State) : Res := s.bySupervisor (fun s => s.fillTlb die va asid level leaf)

/-! ### Invalidation (15 R326, 09 R210) -/

/-- A pending invalidation as the registers gave it: kind, ASID, VA, physical address, size. -/
abbrev Inval := Nat × Nat × Nat × Nat × Nat

/-- Whether an invalidation takes a cached leaf. -/
def Inval.takes (i : Inval) (t : TlbLeaf) : Bool :=
  match i.1 with
  | 0 => true
  | 1 => t.asid == i.2.1 && !wbit t.leaf 4
  | _ => t.covers i.2.1 i.2.2.1

/-- Whether a tag lies in the physical page of an invalidation by page. -/
def Inval.tagIn (i : Inval) (tag : Nat) : Bool :=
  i.1 == 2 && decide (i.2.2.2.2 ≤ 2) && tag / 2 ^ (16 + 10 * i.2.2.2.2) == i.2.2.2.1 / 2 ^ (16 + 10 * i.2.2.2.2)

/-- The slot's names and planes of invalidated tags are stale. -/
def Inval.slot (i : Inval) (m : MeSlot) : MeSlot :=
  let nm (l : List NameRef) : List NameRef := l.map (fun n => if i.tagIn n.tag then { n with stale := true } else n)
  let bd (b : Option Bound) : Option Bound := b.map (fun b => if i.tagIn b.plane.tag then { b with stale := true } else b)
  { m with names := nm m.names, plane0 := bd m.plane0, plane1 := bd m.plane1,
           shadow := { m.shadow with names := nm m.shadow.names, plane0 := bd m.shadow.plane0, plane1 := bd m.shadow.plane1 } }

/-- Carries a pending invalidation out: the TLBs, and for a page the cellars with the planes expanded from them. -/
def State.carryInval (s : State) (d : Nat) : State :=
  match (s.die d).inval with
  | none => s
  | some i =>
    let s := (s.perform (fun w => w.by_.map AgentId.die == some d)).modDie d (fun y => { y with tlb := y.tlb.filter (fun t => !Inval.takes i t), inval := none, invalDone := true })
    let keep (q : Option Phys) : Option Phys := q.filter (fun x => !Inval.tagIn i x.plane.tag)
    let core (k : Core) : Core :=
      { k with utlb := k.utlb.filter (fun e => !Inval.takes i e.2), cellar := k.cellar.filter (fun e => !Inval.tagIn i e.tag), phys0 := keep k.phys0,
               phys1 := keep k.phys1 }
    { s with cores := s.cores.map (fun e => if e.1.die = d then (e.1, core e.2) else e), mes := s.mes.map (fun e => if e.1.die = d then (e.1, Inval.slot i e.2) else e) }

/-- Starts an invalidation, an earlier one being carried out first. -/
def State.startInval (s : State) (d : Nat) (i : Inval) : State :=
  (s.carryInval d).modDie d (fun y => { y with inval := some i, invalDone := false })

/-- A write of INVAL with a kind and an ASID: kind 2 takes its page from INVVA and INVPA, and kind 3 is ignored (15 R326, R334). -/
def State.writeInval (s : State) (die kind asid : Nat) : State :=
  match kind with
  | 0 => s.startInval die (0, 0, 0, 0, 0)
  | 1 => s.startInval die (1, asid, 0, 0, 0)
  | 2 =>
    let pa := s.fab die 0x18
    s.startInval die (2, asid, wfld (s.fab die 0x10) 16 40 * 2 ^ 16, wfld pa 16 21 * 2 ^ 16, wfld pa 0 2)
  | _ => s

def execInvalAll (die : Nat) (s : State) : Res := s.bySupervisor (fun s => s.writeInval die 0 0)
def execInvalAsid (die asid : Nat) (s : State) : Res := s.bySupervisor (fun s => s.writeInval die 1 asid)
def execInvalPage (die asid : Nat) (s : State) : Res := s.bySupervisor (fun s => s.writeInval die 2 asid)
def execInvalComplete (die : Nat) (s : State) : Res := .next (s.carryInval die)

end Sys2Proof.Machine
end

