-- ==== Sys2Proof/Machine/Inbound.lean ====
section
/-! DEFINITION. What reaches a die and the Curator from outside: accesses under the lending entries (15 R331, R336), ingress notifies
(15 R337, 10 R250-R252), and the fabric's and admissions' registers with rows of their own (14 R410, 15 R330, R334, R344, 18 R396). -/

namespace Sys2Proof.Machine

/-! ### Lending entries (15 R331, R336) -/

/-- The source package and domain key that an inbound slot carries: its own, or those its UALink station's UAST register gives (15 R331,
R334), whatever the slot holds; there are four stations. -/
def State.sourceOf (s : State) (x : InSrc) (key : Word) : Nat × Word :=
  match x with
  | .fabric spkg => (spkg, key)
  | .ualink u => if u < 4 then (wfld (s.fabPkg (0x300 + 16 * u)) 0 9, s.fabPkg (0x308 + 16 * u)) else (0, 0)

/-- What a UALink station supports: reads and writes of up to 256 bytes (15 R344). -/
def InReq.onUalink (q : InReq) : Bool :=
  match q with
  | .load _ n => decide (n ≤ 256)
  | .store _ bs => decide (bs.length ≤ 256)
  | .atomic .. | .cas .. | .bridge .. => false

/-- Whether an access that came from a source is one that its interface supports. -/
def InSrc.takes (x : InSrc) (q : InReq) : Bool :=
  match x with
  | .fabric .. => true
  | .ualink _ => InReq.onUalink q

/-- A denial. -/
def State.deny (s : State) (src : Nat) : Res := .next (s.send (.reply src false []))

/-- An inbound atomic or CAS: the old value is returned. On an uncorrectable word it acts on the stored bytes, which is the model's choice (log entry 47). -/
def State.inboundRmw (s : State) (d src : Nat) (key : Word) (a n : Nat) (new : Nat → Option Nat) : Res :=
  if !s.admits d src key a n true true then s.deny src
  else
    let as := rangeFrom (scratchAt d a) n
    let old := leNat (as.map s.rd)
    let s' := match new old with | some x => s.storeRmw (as.zip (natLe n x)) | none => s
    .next (s'.send (.reply src true (natLe n old)))

/-- An inbound request that has reached its die, or a bridge's combining window, where a key of 0 combines with nothing (15 R331). -/
def State.inbound (s : State) (die src : Nat) (key : Word) (req : InReq) : Res :=
  match req with
  | .load a n => if s.admits die src key a n true false then .next (s.send (.reply src true (s.rdN (scratchAt die a) n))) else s.deny src
  | .store a bs =>
    if s.admits die src key a bs.length false true then .next ((s.writeOutside die src (spotsAt true a (cellsAt (scratchAt die a) bs))).send (.reply src true [])) else s.deny src
  | .atomic a n f v => s.inboundRmw die src key a n (fun old => some (amoNew f (8 * n) old (v.toNat % 2 ^ (8 * n))))
  | .cas a n e v => s.inboundRmw die src key a n (fun old => if old = e.toNat % 2 ^ (8 * n) then some (v.toNat % 2 ^ (8 * n)) else none)
  | .bridge st tpkg tdie a n id cw v =>
    if key = 0 then s.deny src else .next (s.combine (src * 16 + st % 16) key tpkg tdie a n id cw v)

/-- Whether a request is held at a die's gallery station, since the die resets (16 R364). -/
def State.heldAtDie (s : State) (d : Nat) (q : InReq) : Bool :=
  (match q with | .bridge .. => false | _ => true) && (s.die d).resetAt.isSome

/-- INBOUND_ACCESS: a load, store, atomic or CAS on lent bytes, or a request that reaches a bridge; held while its die resets, and refused
where its interface does not support it. -/
def execInboundAccess (die : Nat) (src : InSrc) (key : Word) (req : InReq) (s : State) : Res :=
  let p := s.sourceOf src key
  if s.heldAtDie die req then .next s
  else if !InSrc.takes src req then s.deny p.1
  else s.inbound die p.1 p.2 req

/-! ### Ingress notifies (15 R337, 10 R251) -/

/-- The Curator address of an ingress queue's authentication words. -/
def iauthReg (d q : Nat) : Nat := 0x4300000000 + d * 0x100000 + 0x40000 + 64 * q

/-- The last accepted nonce of an ingress queue. -/
def Die.nonce (d : Die) (q : Nat) : Word := Table.get 0 d.nonces q

/-- INGRESS_NOTIFY: admitted by the lending entries, then authenticated, then judged by the queue's state; a queue that enters ERROR by it
raises cause 0x10 to the supervisor. A die that resets holds it (16 R364). -/
def execIngressNotify (die q src : Nat) (key : Word) (tail : BitVec 32) (nonce tag : Word) (s : State) : Res :=
  if (s.die die).resetAt.isSome then .next s
  else if !s.keyReaches die key || decide (64 ≤ q) || !s.lends_ die src (0x0C00000C + 64 * q) 4 false false true then s.deny src
  else if wfld (s.reg (iauthReg die q + 0x20)) 0 9 ≠ src ∨ tag ≠ notifyMac (s.key256 (iauthReg die q)) nonce src die q tail
      ∨ nonce.toNat ≤ ((s.die die).nonce q).toNat then
    (s.modDie die (fun d => { d with unauth := min (d.unauth + 1) 0xFFFFFFFF })).deny src
  else
    let s := s.modDie die (fun d => { d with nonces := Table.put d.nonces q nonce })
    let i := (s.die die).icb q
    let r := i.notify tail
    let s := s.setIcb die q r.1
    let s := if i.state = 0 ∧ r.1.state = 1 then s.post ⟨0x10, BitVec.ofNat 64 q, 0, die, 0, 0, 5, 0⟩ else s
    .next (s.send (.reply src r.2 []))

/-- A task's store of a control-block word, as an event of its own; by a task that does not own the queue it faults (10 R252). -/
def State.icbEvent (s : State) (c : CtxId) (q off : Nat) (v : BitVec 32) : Res :=
  if (s.task c).isNone then .next s
  else
    match s.icbStore c q off v with
    | some s' => .next s'
    | none => .next (s.trap c 0 0x06 (zx (0x0C000000 + 64 * q + off)))

def execIcbHeadWrite (at_ : CtxId) (q : Nat) (v : BitVec 32) (s : State) : Res := s.icbEvent at_ q 0x08 v
def execIcbErrSet (at_ : CtxId) (q : Nat) (s : State) : Res := s.icbEvent at_ q 0x10 4
def execIcbErrClear (at_ : CtxId) (q : Nat) (s : State) : Res := s.icbEvent at_ q 0x10 0

/-- The supervisor's write of STATE (10 R251, 03 R407). -/
def State.superviseIcb (s : State) (d q st : Nat) : Res := s.bySupervisor (fun s => s.setIcb d q (((s.die d).icb q).supervise st))

/-- STATE = RUN, with the launch the supervisor assigned the queue to just before, for which the manual names no register (03 R407; log
entry 27). -/
def execIcbSetRun (die q : Nat) (launch : Option Nat) (s : State) : Res :=
  let i := (s.die die).icb q
  s.bySupervisor (fun s => s.setIcb die q ((if launch.isSome then { i with owner := launch } else i).supervise 0))
def execIcbSetStopped (die q : Nat) (s : State) : Res := s.superviseIcb die q 2

/-- IAUTH_KEY_WRITE: the key is taken and the last nonce becomes 0. -/
def execIauthKeyWrite (die q : Nat) (key : BitVec 256) (s : State) : Res :=
  let k (i : Nat) : Word := BitVec.ofNat 64 (fld key.toNat (64 * i) 64)
  s.bySupervisor (fun s =>
    ((List.range 4).foldl (fun s i => s.setReg (iauthReg die q + 8 * i) (k i)) s).modDie die (fun d => { d with nonces := Table.put d.nonces q 0 }))

/-! ### Registers with rows of their own -/

/-- A write of any value to COUNTS, of a die or as 15 of the Curator's station (log entry 97). -/
def State.clearCounts (s : State) (die : Nat) : State :=
  if die = 15 then { s with cur := { s.cur with late := 0 }, power := { s.power with counted := 0 } }
  else s.modDie die (fun d => { d with late := 0, unauth := 0 })

def execCountsClear (die : Nat) (s : State) : Res := s.bySupervisor (fun s => s.clearCounts die)

/-- Whether a launch of a partition is active. -/
def State.partActive (s : State) (p : Nat) : Bool := s.launches.any (fun l => l.part == p)

/-- A write of PARTp: ignored when a launch is active in the partition, when FIRST and LAST name no run of stage dies, or on an overlap. -/
def State.writePart (s : State) (p : Nat) (v : Word) : State :=
  let f := wfld v 0 4
  let l := wfld v 4 4
  let mine := (rangeFrom f (l + 1 - f))
  let overlap := (List.range 4).any (fun q => q != p && (s.partDies q).any mine.contains)
  if 4 ≤ p || s.partActive p then s
  else if wbit v 8 && (decide (l < f) || decide (11 < l) || overlap) then s
  else s.setReg (0x4301000000 + 16 * p) (BitVec.ofNat 64 (v.toNat % 2 ^ 9))

def execPartWrite (p : Nat) (v : Word) (s : State) : Res := s.bySupervisor (fun s => s.writePart p v)

/-- A write of PVALLOT: FIRST above LAST is ignored (14 R410). -/
def State.writePvallot (s : State) (v : Word) : State :=
  if wfld v 16 16 < wfld v 0 16 then s else { s with pvFirst := wfld v 0 16, pvLast := wfld v 16 16 }

def execPvallotWrite (v : Word) (s : State) : Res := s.bySupervisor (fun s => s.writePvallot v)

/-- A write of BYPASS (18 R396): a position once skipped is rejoined only as stage 7 allows. -/
def State.writeBypass (s : State) (v : Word) : State :=
  { s with service := { s.service with bypass := wfld v 0 24, left := s.service.left ||| wfld v 0 24 } }

def execBypassWrite (v : Word) (s : State) : Res := s.bySupervisor (fun s => s.writeBypass v)

/-- EXTERNAL_RING_WRITE: an external interface writes into the ring units of enabled queues, and nowhere else; a UALink station at most 256
bytes at a time (15 R344). -/
def execExternalRingWrite (addr : Nat) (data : ExtData) (s : State) : Res :=
  let unit (i : Nat) : Nat := (addr + i) / 4096
  if data.ualink ∧ 256 < data.bytes.length then .next s
  else if (List.range data.bytes.length).all (fun i => decide (unit i < 1024) && (s.queue (unit i)).state != 0) then .next (s.storeAt (admAt addr) data.bytes)
  else .next s

end Sys2Proof.Machine
end

