-- ==== Sys2Proof/Machine/Resets.lean ====
section
/-! DEFINITION. The conservator's alarms, the resets of every domain, pre-emption and abort, and link failures (15 R343, 16 R345-R369). -/

namespace Sys2Proof.Machine

/-! ### Alarms (16 R346-R350) -/

/-- TVAL of cause 0x0E (16 R356). -/
def alarmVal (count kind agent : Nat) : Word := BitVec.ofNat 64 (count * 2 ^ 8 + kind * 2 ^ 4 + agent)

/-- Raises cause 0x0E for every task with a current command on an engine, whose slots stop as at a fault. -/
def State.raiseWatch (s : State) (c : CoreId) (k : AgentKind) (count kind : Nat) : State :=
  let s := (CoreId.slots c).foldl (fun s d =>
    if (s.stream (d.agent k)).active then s.trap d k.num 0x0E (alarmVal count kind k.num) else s) s
  s.modCore c (fun x => { x with wd := setNth x.wd (k.num - 1) 0 })

/-- A core reset of an alarm or of SLOTCTL, unless one runs (16 R345, R363). -/
def State.startCoreReset (s : State) (c : CoreId) (count agent : Nat) : State :=
  if (s.core c).crst.isSome || (s.die c.die).resetAt.isSome then s else s.coreReset c (alarmVal count 3 agent)

/-- Whether a mark of an engine has begun to issue its recorded XCADs, which holds alarms and resets of the engine (16 R350). -/
def State.markIssuing (s : State) (c : CoreId) (k : AgentKind) : Bool :=
  (CoreId.slots c).any (fun d => (s.stream (d.agent k)).issuing)

/-- Whether an engine's reset waits: for a mark that issues its XCADs, and an ME's for a bank exchange under way. -/
def State.resetWaits (s : State) (c : CoreId) (k : AgentKind) : Bool :=
  s.markIssuing c k || (k == .me && !(s.core c).exchanges.isEmpty)

/-- An alarm of an engine is noted; one that comes while its reset is due is dropped (16 R350). The third parity or protocol alarm within
1 ms starts a core reset (16 R349), which waits for a mark that issues its XCADs and is noted as kind 3 until then. DUTY bit 0 acts as it
stands at the alarm (13 R290). -/
def State.noteAlarm (s : State) (c : CoreId) (k : AgentKind) (kind : Nat) : State :=
  if (s.core c).pendReset.any (fun p => p.1 == k.num) then s
  else
    let recent := (s.core c).alarms.filter (fun a => decide (s.cycle < a.2 + micros 1000))
    let third := kind != 0 && decide (2 ≤ (recent.filter (fun a => a.1 == k.num)).length)
    if third && !s.markIssuing c k then s.startCoreReset c 3 k.num
    else s.modCore c (fun x => { x with pendReset := x.pendReset ++ [(k.num, if third then 3 else kind, s.duty.testBit 0)],
                                        alarms := if kind = 0 then recent else recent ++ [(k.num, s.cycle)] })

/-- WATCHDOG_EXPIRY: a count has reached WDT, both in cycles of the engine; the blocked instruction of an SCU context is abandoned with cause
0x0E (16 R347-R348). -/
def execWatchdogExpiry (ag : AgentId) (s : State) : Res :=
  let c := ag.coreId
  let k := s.core c
  let limit := k.wdt.getD ag.kind.num 0
  if !s.coreRuns c then .next s
  else if ag.kind = .scu then
    let x := s.ctx ag.ctx
    if x.blocked ∧ ag.slot < 4 ∧ limit ≤ x.wd then .next (s.trap ag.ctx 0 0x0E (alarmVal 1 0 0)) else .next s
  else if k.wd.getD (ag.kind.num - 1) 0 < limit then .next s
  else .next (s.noteAlarm c ag.kind 0)

/-- A parity or protocol alarm (16 R345-R346); parity in the Registrar, the die TLB or the mesh control resets the die. -/
def State.hardAlarm (s : State) (c : CoreId) (src : AlarmSrc) (kind : Nat) : State :=
  match src with
  | .dieControl => if kind = 1 ∧ c.die < 12 ∧ s.mode = .running ∧ (s.die c.die).resetAt = none then s.dieReset c.die else s
  | .conservator => if s.coreRuns c then s.startCoreReset c 1 5 else s
  | .unit .scu _ => if s.coreRuns c then s.startCoreReset c 1 0 else s
  | .unit k _ => if s.coreRuns c then s.noteAlarm c k kind else s

def execParityAlarm (core : CoreId) (src : AlarmSrc) (s : State) : Res := .next (s.hardAlarm core src 1)
def execProtocolAlarm (core : CoreId) (src : AlarmSrc) (s : State) : Res := .next (s.hardAlarm core src 2)

/-! ### Engine resets (16 R348-R351) -/

/-- Empties the cellar and the physical planes of a core, and abandons the cellar's parked fetches (09 R231, 15 R327). -/
def State.emptyCellar (s : State) (c : CoreId) : State :=
  (s.unpark c.die (fun o => match o with | .cellar k _ _ => k == c | _ => false)).modCore c
    (fun x => { x with cellar := [], phys0 := none, phys1 := none, passHeld := none })

/-- FLUSH to RESUME for every slot of an engine; the ME's cellar and physical planes are emptied (09 R231). -/
def State.resetEngine (s : State) (c : CoreId) (k : AgentKind) (byWatch : Bool) : State :=
  let s := (CoreId.slots c).foldl (fun s d => s.slotReset (d.agent k)) s
  let s := s.modCore c (fun x => { x with wd := setNth x.wd (k.num - 1) 0, wdReset := setNth x.wdReset (k.num - 1) byWatch })
  if k = .me then s.emptyCellar c else s

/-- ENGINE_RESET: the alarm that is due is answered: a third hard alarm by a core reset; by 0x0E if DUTY bit 0 was set at it, and by 0x0E for a
watchdog alarm whose engine a watchdog alarm reset last with no mark since; else by a reset. -/
def execEngineReset (core : CoreId) (kind : AgentKind) (s : State) : Res :=
  match (s.core core).pendReset.find? (fun p => p.1 == kind.num) with
  | none => .next s
  | some (_, a, assisted) =>
    if !s.coreRuns core || (if a = 3 then s.markIssuing core kind else s.resetWaits core kind) then .next s
    else if a = 3 then .next (s.startCoreReset core 3 kind.num)
    else
      let s := s.modCore core (fun x => { x with pendReset := x.pendReset.filter (fun p => p.1 != kind.num) })
      if assisted then .next (s.raiseWatch core kind 1 a)
      else if a = 0 ∧ (s.core core).wdReset.getD (kind.num - 1) false then .next (s.raiseWatch core kind 2 0)
      else .next (s.resetEngine core kind (a == 0))

/-- Reloads a slot of an engine where it stands: at its mark it stays, for a pre-emption that waits for the same mark (16 R351). -/
def State.reloadSlot (s : State) (a : AgentId) : State :=
  (s.resumeMark a).modStream a (fun x => { x with atMark := (s.stream a).atMark })

/-- Reloads every slot of an engine that stands at its mark, with its watchdog count back at 0 (16 R348, R351); the ME's cellar is emptied as
at every reset (16 R367), and tables that replace the core's are taken up (18 R393). -/
def State.rollEngine (s : State) (c : CoreId) (k : AgentKind) : State :=
  let s := (CoreId.slots c).foldl (fun s d => s.reloadSlot (d.agent k)) s
  let s := s.modCore c (fun x => { x with rolling := setNth x.rolling (k.num - 1) false, wd := setNth x.wd (k.num - 1) 0,
                                          wdReset := setNth x.wdReset (k.num - 1) false,
                                          newTables := x.newTables.map (fun e => (e.1, e.2.1, e.2.2.filter (fun n => n != k.num))) })
  if k = .me then s.emptyCellar c else s

/-- Whether every slot with a current command of an engine stands at a mark. -/
def State.allAtMark (s : State) (c : CoreId) (k : AgentKind) : Bool :=
  (CoreId.slots c).all (fun d => !(s.stream (d.agent k)).active || (s.stream (d.agent k)).atMark)

/-- ROLLING_RESET: once a period has passed it waits for every slot's mark, then reloads; after a whole period without that it is
withdrawn and counted. -/
def execRollingReset (core : CoreId) (kind : AgentKind) (s : State) : Res :=
  let k := s.core core
  let i := kind.num - 1
  let period := s.rollPeriod core kind
  let due := decide (k.rollAt.getD i 0 + period ≤ s.cycle)
  if !s.coreRuns core || kind == .scu then .next s
  else if k.rolling.getD i false then
    if s.allAtMark core kind && !s.resetWaits core kind then .next (s.rollEngine core kind)
    else if due then .next (s.modCore core (fun x => { x with rolling := setNth x.rolling i false, withdrawn := x.withdrawn + 1 }))
    else .next s
  else if due then
    let s := s.modCore core (fun x => { x with rolling := setNth x.rolling i true, rollAt := setNth x.rollAt i s.cycle })
    .next (if s.allAtMark core kind && !s.resetWaits core kind then s.rollEngine core kind else s)
  else .next s

/-! ### Core and die resets (16 R363-R364) -/

/-- Whether the package has a core, on a running module. -/
def State.hasCore (s : State) (c : CoreId) : Bool := decide (c.die < 12) && decide (c.core < 64) && decide (s.mode = .running)

/-- The docent of a core that has been reset restarts and restores the registers of the conservator tables, each as its write rules take
it (13 R280, 05 R121). -/
def State.restartCore (s : State) (c : CoreId) : State :=
  let t := s.tablesOf c
  s.modCore c (fun k => { k with crst := none, tdlg := t.tdlg &&& tdlgMask, dshare := if t.dshare % 8 ≤ 4 then t.dshare % 8 else k.dshare,
                                 mbhold := t.mbhold.map (· % 2 ^ 16), wdt := t.wdt.map (· % 2 ^ 32) })

/-- CORE_RESET_COMPLETE. -/
def execCoreResetComplete (core : CoreId) (s : State) : Res :=
  if (s.core core).crst.isSome && (s.die core.die).resetAt.isNone then .next (s.restartCore core) else .next s

/-- CORE_RESET_TIMEOUT: a core reset not complete within 1 ms starts a die reset. -/
def execCoreResetTimeout (core : CoreId) (s : State) : Res :=
  match (s.core core).crst with
  | some t => if t + micros 1000 ≤ s.cycle ∧ (s.die core.die).resetAt.isNone then .next (s.dieReset core.die) else .next s
  | none => .next s

/-- A write of 1 to DIECTL's bit 0 starts a die reset, unless one runs. -/
def State.writeDiectl (s : State) (die : Nat) : State :=
  if 12 ≤ die ∨ (s.die die).resetAt.isSome then s else s.dieReset die

/-- DIE_RESET: DIECTL, which an active supervisor writes (16 R369). -/
def execDieReset (die : Nat) (s : State) : Res := s.bySupervisor (fun s => s.writeDiectl die)

/-- The restart of a die's Registrar and of its cores. -/
def State.restartDie (s : State) (d : Nat) : State :=
  let s := s.modDie d (fun y => { y with resetAt := none })
  (List.range 64).foldl (fun s c => s.restartCore ⟨d, c⟩) s

/-- DIE_RESET_COMPLETE. -/
def execDieResetComplete (die : Nat) (s : State) : Res :=
  if (s.die die).resetAt.isSome then .next (s.restartDie die) else .next s

/-! ### Package and partition resets (16 R365-R367) -/

/-- What a package or partition reset does to a queue: HEAD becomes DONE, and it resumes there. -/
def Queue.rewind (x : Queue) : Queue :=
  let y : Queue :=
    { x with calls := [], loops := [[]], copied := none, window := [], skip := 0, wait := .no, offer := none, pendingDone := [], curLaunches := [], offPending := false,
             stopFor := none, runnable := false }
  if x.state = 0 then y else { y with state := 1, head := x.done, point := ⟨true, x.done.toNat, 0⟩ }

/-- Clears a die: every core reset, its vault, its scratchpad, its Registrar and its control blocks, and the restart of all of it. -/
def State.clearDie (s : State) (d : Nat) : State :=
  let s := s.dieReset d
  let s := (List.range 64).foldl (fun s i => s.modCore ⟨d, i⟩ (fun k => { k with posted := [] })) (s.clearRange (scratchAt d 0) 0x0C000000)
  let s : State := { s with vault := s.vault.filter (fun e => e.1 / 65536 != d), vaultBad := s.vaultBad.filter (fun k => k / 65536 != d),
                            reqs := s.reqs.filter (fun r => r.station != d) }
  let s := s.modDie d (fun y =>
    { y with insts := [], preds := [], parked := [], icbs := y.icbs.map (fun e => (e.1, { e.2 with state := 2, owner := none })) })
  s.restartDie d

/-- Rewinds some queues and forgets their turns. -/
def State.rewindQueues (s : State) (f : Queue → Bool) : State :=
  let hit := (Table.keys s.queues).filter (fun q => f (s.queue q))
  let s := hit.foldl (fun s q => ((s.dropWaiter (queueAgent q)).endTurn q).modQueue q Queue.rewind) s
  s.rewake

/-- Removes launches with their streams, the bytes of their stream buffers and their package-vault words. -/
def State.forgetLaunches (s : State) (f : Launch → Bool) : State :=
  let gone := s.launches.filter f
  let inRun (k : Nat) : Bool := gone.any (fun l => decide (pkgWord l.pbase ≤ k) && decide (k < pkgWord l.pbase + l.pwords))
  let s := gone.foldl (fun s l => s.clearRange (streamAt l.seq 0 0 0) (64 * 4096 * 65536)) s
  { s with launches := s.launches.filter (fun l => !f l), gallery := s.gallery.filter (fun z => !(gone.any (fun l => l.seq == z.launch))),
           vault := s.vault.filter (fun e => !inRun e.1), vaultBad := s.vaultBad.filter (fun k => !inRun k) }

/-! ### The boot chain (18 R388) -/

/-- A byte of the store an image stands in. -/
def ImageRef.place (x : ImageRef) (i : Nat) : Nat := if x.flash then flashAt (x.at_ + i) else supAt ((x.at_ + i) % 0x300000)
/-- The bytes of an image. -/
def State.imageBytes (s : State) (x : ImageRef) : List Byte := (List.range x.len).map (fun i => s.rd (x.place i))
/-- The version of an image. -/
def State.imageVersion (s : State) (x : ImageRef) : Nat := leNat ((List.range 4).map (fun i => s.rd (x.place (x.ver + i))))

/-- A number of 48 bytes, most-significant first. -/
def State.number48 (s : State) (at_ : Nat → Nat) : Nat := beNat ((List.range 48).map (fun i => s.rd (at_ i)))

/-- A public key of 96 bytes. -/
def State.keyAt (s : State) (at_ : Nat → Nat) : Nat × Nat := (s.number48 at_, s.number48 (fun i => at_ (48 + i)))

/-- Whether an image is accepted for its kind: its signature verifies under a key, and its version, which lies in it, is at least the counter fused
(18 R388). -/
def State.accepts (s : State) (key : Nat × Nat) (kind : Nat) (x : ImageRef) : Bool :=
  let sig (i : Nat) : Nat := if x.flash then flashAt (x.sig + i) else supAt ((x.sig + i) % 0x300000)
  decide (s.service.fused.getD kind 0 ≤ s.imageVersion x) && decide (x.ver + 4 ≤ x.len)
    && ecdsaVerify key (s.imageBytes x) (s.number48 sig) (s.number48 (fun i => sig (48 + i)))

/-- An image of the boot chain, counted from 0. -/
def State.bootImage (s : State) (i : Nat) : ImageRef := s.service.flash.images.getD i {}
/-- The root key that the flash holds. -/
def State.rootKey (s : State) : Nat × Nat := s.keyAt (fun i => flashAt (s.service.flash.root + i))
/-- The image key that the key manifest holds. -/
def State.manifestKey (s : State) : Nat × Nat := s.keyAt (fun i => (s.bootImage 0).place (s.service.flash.keyIn + i))

/-- Whether an image of the chain is accepted: the key manifest under the root key, whose SHA-384 is fused, and every other one under the manifest's image
key (18 R388). -/
def State.chainAccepts (s : State) (i : Nat) : Bool :=
  if i = 0 then
    sha384 ((List.range 96).map (fun j => s.rd (flashAt (s.service.flash.root + j)))) == s.service.rootHash && s.accepts s.rootKey 0 (s.bootImage 0)
  else s.accepts s.manifestKey i (s.bootImage i)

/-- The first image of the chain that fails, counted from 1; 0 for none. -/
def State.failing (s : State) : Nat :=
  match (List.range 5).find? (fun i => !s.chainAccepts i) with
  | some i => i + 1
  | none => 0

/-- The boot chain is verified again (16 R365): at a failure the module stays in reset (18 R388); the measurement registers stay in any case (18
R389). -/
def State.verifyChain (s : State) : State :=
  let n := s.failing
  if n = 0 then s else { s with mode := .reset, service := { s.service with failImage := n, stage := 0 } }

/-- A hart as it starts: at machine level, in the monitor's image (log entry 96). -/
def bootHart : Hart := { pc := BitVec.ofNat 64 (supAt (Config.imageBase 1 % 0x300000)) }

/-- The clearing of a package (16 R365, R367): every die, the vaults, the launches; the boot chain is verified again, the Curator's harts and pairs start
afresh, a takeover is over, and Sloush is to rebuild its state from the journal. -/
def State.resetPackage (s : State) : State :=
  let s := (List.range 12).foldl State.clearDie (s.forgetLaunches (fun _ => true))
  let s : State := { s with vault := [], vaultBad := [], waiters := [], reqs := [], combining := [], order := {} }
  let c : Curator := { s.cur with pairs := #v[.active, .standby, .service, .service], takeover := false, planned := false, swapAsked := false }
  let c : Curator := { c with harts := Vector.replicate 4 bootHart, rebuild := true }
  let s : State := { s with cur := { c with pkgReset := false, refreshed := s.cycle }, cycleBase := s.cycle }
  (s.rewindQueues (fun _ => true)).verifyChain

/-- A package reset is needed; during a takeover it waits for its end (16 R369). -/
def State.needPackageReset (s : State) : State :=
  if s.cur.takeover then { s with cur := { s.cur with pkgReset := true } } else s.resetPackage

/-- PACKAGE_RESET: PKGRST, which Curator M writes, or the reset that is due. -/
def execPackageReset (s : State) : Res :=
  if s.mode = .running ∧ s.cur.pkgReset = true ∧ s.cur.takeover = false then .next s.resetPackage else s.byMonitor State.needPackageReset

/-- DIE_RESET_TIMEOUT: a die reset not complete within 10 ms starts a package reset. -/
def execDieResetTimeout (die : Nat) (s : State) : Res :=
  match (s.die die).resetAt with
  | some t => .next (if t + micros 10000 ≤ s.cycle then s.needPackageReset else s)
  | none => .next s

/-- The reset of a partition: its dies, queues and package-vault words. -/
def State.resetPartition (s : State) (p : Nat) : State :=
  if 4 ≤ p then s
  else ((s.partDies p).foldl State.clearDie (s.forgetLaunches (fun l => l.part == p))).rewindQueues (fun x => x.part == p)

/-- PARTITION_RESET: PARTRST, which an active supervisor writes (16 R369). -/
def execPartitionReset (p : Nat) (s : State) : Res := s.bySupervisor (fun s => s.resetPartition p)

/-! ### Pre-emption and abort (16 R357-R360) -/

/-- Abandons the parked accesses of an engine: its interval is discarded and it stands at its last mark. -/
def State.abandonParked (s : State) (a : AgentId) : State :=
  if s.behindWalk a then (s.slotReset a).modStream a (fun x => { x with atMark := x.active }) else s

/-- A pre-emption request for a slot: a task that is not pre-empted yet is asked to stop, and its context abandons a blocking instruction; one
still to start, or whose SCU program has ended, is asked as any other. A frozen task records the request as a later trap (log entry 26). -/
def State.preemptSlot (s : State) (c : CtxId) : State :=
  match s.task c with
  | none => s
  | some t =>
    if t.preempted || t.preempting then s
    else if t.frozen then s.recordLater c 5 0x11
    else
      let s := s.setTask c (some { t with preempting := true })
      let s := (s.dropWaiter (c.agent .scu)).unpark c.die (fun o => o == .scu c)
      (engineKinds.map c.agent).foldl State.abandonParked (s.modCtx c Ctx.abandon)

/-- PREEMPT_REQUEST: SLOTCTL.PRE, which an active supervisor writes (16 R369). -/
def execPreemptRequest (at_ : CtxId) (s : State) : Res := s.bySupervisor (fun s => s.preemptSlot at_)

/-- Whether an engine of a slot has stopped for a pre-emption. -/
def State.stopped (s : State) (a : AgentId) : Bool :=
  let x := s.stream a
  !x.active || (x.atMark && (a.kind != .me || !s.ownsTile a.ctx))

/-- PREEMPTION_COMPLETE: what the engines have parked since the request is abandoned; once every agent has stopped, the task is pre-empted and
cause 0x11 is raised. -/
def execPreemptionComplete (at_ : CtxId) (s : State) : Res :=
  match s.task at_ with
  | none => .next s
  | some t =>
    let s := if t.preempting then (engineKinds.map at_.agent).foldl State.abandonParked s else s
    if !t.preempting || !(engineKinds.map at_.agent).all s.stopped then .next s
    else .next ((s.modTask at_ (fun t => { t with preempted := true })).trap at_ 5 0x11 0)

/-- A write of SLOTCTL (16 R357): CRST resets the core and every other bit is ignored; else ABT aborts and PRE pre-empts each slot, ABT before
PRE, and AFAIL is kept as written. -/
def State.writeSlotctl (s : State) (c : CoreId) (v : Word) : State :=
  if !s.hasCore c then s
  else if wbit v 16 then s.startCoreReset c 0 5
  else
    let s := s.modCore c (fun k => { k with afail := wbit v 12 })
    (CoreId.slots c).foldl (fun s d =>
      if wbit v (8 + d.ctx) then s.abort d (wbit v 12) else if wbit v d.ctx then s.preemptSlot d else s) s

/-- SLOTCTL as read (16 R357); an abort is done within the step that writes it. -/
def State.readSlotctl (s : State) (c : CoreId) : Word :=
  let pre (d : CtxId) : Nat := match s.task d with | some t => if t.preempted then 2 ^ d.ctx else 0 | none => 0
  BitVec.ofNat 64 ((if (s.core c).crst.isSome then 2 ^ 16 else 0) + (if (s.core c).afail then 2 ^ 12 else 0)
    + ((CoreId.slots c).map pre).foldl (· + ·) 0)

/-- CORE_RESET: SLOTCTL.CRST, which an active supervisor writes (16 R369). -/
def execCoreReset (core : CoreId) (s : State) : Res := s.bySupervisor (fun s => s.writeSlotctl core (BitVec.ofNat 64 (2 ^ 16)))

/-- SLOT_ABORT: SLOTCTL.ABT of a slot, with AFAIL. -/
def execSlotAbort (at_ : CtxId) (afail : Bool) (s : State) : Res :=
  if 4 ≤ at_.ctx then .next s
  else s.bySupervisor (fun s => s.writeSlotctl at_.coreId (BitVec.ofNat 64 (2 ^ (8 + at_.ctx) + (if afail then 2 ^ 12 else 0))))

/-! ### Link failures (15 R342-R343) -/

/-- Freezes every task on some dies that is not frozen yet. -/
def State.freezeDies (s : State) (dies : List Nat) (cause : Nat) (v : Word) : State :=
  (Table.keys s.tasks).foldl (fun s c =>
    match s.task c with
    | some t => if dies.contains c.die ∧ !t.frozen then s.freeze c 5 cause v else s
    | none => s) s

/-- Loses the undelivered slots of a link: of the requests whose way leads over it, which have a slot that is not delivered is open (log entry 109);
one that has bounced stands at its source. -/
def State.loseSlots (s : State) (link : Nat) : State :=
  { s with
    reqs := (numbered s.reqs).map (fun e =>
      let r := e.2
      if (s.route r.station r.path).contains link && r.retryAt.isNone && !r.denied && !r.bridged && Config.freeBit (s.freeCtr + e.1) then
        { r with lost := true } else r),
    freeCtr := s.freeCtr + s.reqs.length }

/-- LINK_TAG_FAILURE: the link stops, its undelivered slots are lost, and for each partition it carries cause 0x13 is posted and its tasks are
frozen, until its reset. -/
def execLinkTagFailure (link : Nat) (s : State) : Res :=
  if (s.link link).failed then .next s
  else
    let s := s.loseSlots link
    let s := s.modLink link (fun l => { l with failed := true })
    .next (((List.range 4).filter (fun p => (s.link link).parts.testBit p)).foldl (fun s p =>
      (s.post ⟨0x13, BitVec.ofNat 64 link, 0, 15, 0, 0, 5, 0⟩).freezeDies (s.partDies p) 0x13 (BitVec.ofNat 64 link)) s)

/-- The other epoch of a link: the key in its other slot is in service, with no group counted under it yet. -/
def Link.flip (l : Link) : Link := { l with epoch := !l.epoch, groups := 0, rolled := true }

/-- LINK_EPOCH_FLIP: pair D writes the next key, a free value, into the idle slot, and the link goes on under it (15 R342). -/
def execLinkEpochFlip (link : Nat) (s : State) : Res :=
  let key := BitVec.ofNat 256 (((List.range 4).map (fun i => (Config.freeWord (s.freeCtr + i)).toNat * 2 ^ (64 * i))).foldl (· + ·) 0)
  .next ({ s with freeCtr := s.freeCtr + 4 }.modLink link (fun l => { l with keys := setNth l.keys (if l.epoch then 0 else 1) key }.flip))

/-- LINK_KEY_WEAR: the groups counted under one key; at 2^39 pair D is alarmed, and from 2^40 the link refuses all traffic as busy. -/
def execLinkKeyWear (link groups : Nat) (s : State) : Res :=
  let before := (s.link link).groups
  let s := s.modLink link (fun l => { l with groups := max l.groups groups, rolled := false })
  .next (if before < 2 ^ 39 ∧ 2 ^ 39 ≤ groups then s.send .irqPairD else s)

/-! ### Uncorrectable errors (03 R72) -/

/-- SOFT_ERROR: the ECC word of an address, or from 2^60 on both copies of a vault word, become uncorrectable. -/
def execSoftError (addr : Nat) (s : State) : Res :=
  if 2 ^ 60 ≤ addr then
    .next (if s.vaultBad.contains (addr - 2 ^ 60) then s else { s with vaultBad := s.vaultBad ++ [addr - 2 ^ 60] })
  else .next (if s.ecc.contains (addr / 8 * 8) then s else { s with ecc := s.ecc ++ [addr / 8 * 8] })

/-! ### The docent's doorbell (13 R272) -/

/-- A write of DOORBELL ends a PARK of the docent, which continues after it (13 R282); one rung while the docent is being loaded finds it
about to restart. -/
def State.doorbell (s : State) (c : CoreId) : State :=
  if (s.core c).docBusy then s
  else s.modCtx (c.ctx 4) (fun x => if x.park then { x.complete 2 with park := false } else x)

/-- DOORBELL: Curator S writes it through the core register window. -/
def execDoorbell (core : CoreId) (s : State) : Res := s.bySupervisor (fun s => s.doorbell core)

end Sys2Proof.Machine
end

