-- ==== Sys2Proof/Machine/Curator.lean ====
section
/-! DEFINITION. The Curator complex: its trap queues (13 R283, R409), its pairs, journal and takeovers (13 R274-R277, 18 R394), and DUTY
(13 R290). -/

namespace Sys2Proof.Machine

/-! ### Trap queues (13 R409) -/

/-- Posts again what the cores hold, oldest first; what finds no room is held again. -/
def State.repost (s : State) : State :=
  let l := s.cur.held
  let s : State := { s with cur := { s.cur with held := [] } }
  l.foldl (fun s h => s.postWords (wfld (h.2.2.getD 1 0) 32 8 == 0x12) (h.1, h.2.1) h.2.2) s

/-- Whether a read count accepts a value: it moves forwards, and not past the write count. -/
def countAccepts (rd wr v : Nat) : Bool := decide ((v + 2 ^ 32 - rd) % 2 ^ 32 ≤ (wr + 2 ^ 32 - rd) % 2 ^ 32)

/-- The supervisor queue's read count moves. -/
def State.readTraps (s : State) (v : Nat) : State :=
  if countAccepts s.cur.tqrd s.cur.tqwr v then ({ s with cur := { s.cur with tqrd := v } } : State).repost else s

/-- The monitor queue's read count moves. -/
def State.readMonitor (s : State) (v : Nat) : State :=
  if countAccepts s.cur.mqrd s.cur.mqwr v then ({ s with cur := { s.cur with mqrd := v } } : State).repost else s

def execTqrdWrite (v : BitVec 32) (s : State) : Res := s.bySupervisor (fun s => s.readTraps v.toNat)
def execMqrdWrite (v : BitVec 32) (s : State) : Res := s.byMonitor (fun s => s.readMonitor v.toNat)

/-! ### Pairs and takeovers (13 R274-R277) -/

/-- The state of a pair. -/
def Curator.pair (q : Curator) (i : Nat) : PairSt := q.pairs.getD i .stopped
/-- Sets the state of a pair. -/
def Curator.setPair (q : Curator) (i : Nat) (p : PairSt) : Curator := { q with pairs := setNth q.pairs i p }
/-- Replaces every pair in one state by another. -/
def Curator.turn (q : Curator) (p r : PairSt) : Curator := { q with pairs := q.pairs.map (fun x => if x = p then r else x) }

/-- Starts a takeover: the active pair is held, and the watchdog counts for the other from here on (log entry 86). -/
def State.startTakeover (s : State) (planned : Bool) : State :=
  { s with cur := { s.cur.turn .active .held with takeover := true, planned := planned, swapAsked := false, refreshed := s.cycle } }

/-- No pair is left to take over: the monitor is told and the package is reset (13 R277). -/
def State.loseSupervisor (s : State) : State := (s.send .irqMonitor).resetPackage

/-- The active pair fails: a standby takes over, or, with none in service, the monitor is told and the package is reset (13 R277). -/
def State.failActive (s : State) : State :=
  if s.cur.pairs.contains .standby then s.startTakeover false else s.loseSupervisor

/-- Whether the supervisor watchdog counts: once a supervisor has started (18 R391), and a planned takeover absorbs it (18 R394). -/
def State.watchdogRuns (s : State) : Bool :=
  decide (s.mode = .running) && !(s.cur.takeover && s.cur.planned) && (s.cur.takeover || s.cur.pairs.contains .active)

/-- SUPERVISOR_WATCHDOG_EXPIRY: no refresh for 2 ms; the active pair fails, or the one that is taking over. -/
def execSupervisorWatchdogExpiry (s : State) : Res :=
  if !s.watchdogRuns || decide (s.cycle < s.cur.refreshed + micros 2000) then .next s
  else .next (if s.cur.takeover then s.loseSupervisor else s.failActive)

/-- SUPERVISOR_WATCHDOG_REFRESH: one that comes 2 ms or more after the last finds the watchdog fired. -/
def execSupervisorWatchdogRefresh (s : State) : Res :=
  .next (if s.mode = .running ∧ s.cycle < s.cur.refreshed + micros 2000 then { s with cur := { s.cur with refreshed := s.cycle } } else s)

/-- LOCKSTEP_MISMATCH stops a pair: the active one's starts a takeover, and any other's is reported to the monitor; that of the standby which a
takeover relies on leaves no supervisor, and resets the package (13 R277). -/
def execLockstepMismatch (pair : Nat) (s : State) : Res :=
  if s.mode ≠ .running then .next s
  else
    match s.cur.pair pair with
    | .active => .next s.failActive
    | .standby =>
      let s := ({ s with cur := s.cur.setPair pair .stopped } : State).send .irqMonitor
      .next (if s.cur.takeover && !s.cur.pairs.contains .standby then s.resetPackage else s)
    | .service => .next (({ s with cur := s.cur.setPair pair .stopped } : State).send .irqMonitor)
    | .stopped | .held => .next s

/-- SELF_TEST_COMPLETE returns a stopped pair to service, restarted: A and B as the standby. -/
def execSelfTestComplete (pair : Nat) (s : State) : Res :=
  match s.cur.pair pair with
  | .stopped =>
    let c := s.cur.setPair pair (if pair < 2 then .standby else .service)
    .next { s with cur := { c with harts := setNth c.harts pair bootHart } }
  | _ => .next s

/-- Extends a measurement register with a digest (18 R389). -/
def Service.extend (v : Service) (n : Nat) (digest : BitVec 384) : Service :=
  let bytes (x : BitVec 384) : List Byte := beBytes 48 x.toNat
  { v with meas := setNth v.meas n (sha384 (bytes (v.meas.getD n 0) ++ bytes digest)) }

/-- A write of 1 to SUPSWAP.GO: the standby takes over at the next journal commit (18 R394; log entry 30). -/
def State.askSwap (s : State) : State :=
  if s.cur.swapAsked || !s.cur.pairs.contains .standby then s else { s with cur := { s.cur with swapAsked := true } }

def execSupswap (s : State) : Res := s.bySupervisor State.askSwap

/-- The Curator address of TQRD. -/
def tqrdReg : Nat := 0x4301000290

/-- The place of a record of the journal's ring in supervisor memory. -/
def journalAt (n : Nat) : Nat := supAt (Config.journalBase % 0x200000 / 64 * 64 + 64 * (n % 16384))

/-- JOURNAL_COMMIT: a record of the value a register is to take joins the ring: its last word holds its sequence number, and the layout of the
others is open (log entry 84). Pair B takes the value into its copy (13 R275); a swap that was asked for starts here. -/
def execJournalCommit (pa : Nat) (v : Word) (s : State) : Res :=
  if !s.supervised then .next s
  else
    let n := s.cur.records
    let s := s.storeAt (journalAt n) ((List.range 56).map (fun i => Config.freeByte (s.freeCtr + i)) ++ natLe 8 n)
    let l := s.cur.journal ++ [(pa, v)]
    let c : Curator := { s.cur with journal := l.drop (l.length - 16384), records := n + 1, copy := s.cur.copy.filter (fun e => e.1 != pa) ++ [(pa, v)] }
    let s : State := { s with freeCtr := s.freeCtr + 56, cur := if pa = tqrdReg then { c with committedRd := v.toNat % 2 ^ 32 } else c }
    .next (if s.cur.swapAsked then s.startTakeover true else s)

/-- A Sloush image is loaded for a pair, 5 for A and 6 for B, or at the boot for both, 2. -/
def State.storeSloush (s : State) (place : Nat) (x : ImageRef) : State := s.storeAt (supAt (Config.imageBase place % 0x300000)) (s.imageBytes x)

/-- After a planned takeover the old pair loads the image that has taken over (18 R394; log entry 30). -/
def State.loadOld (s : State) : State :=
  let new := if s.cur.pair 1 = .active then 1 else 0
  let x := s.cur.sloushAt.getD new {}
  { s.storeSloush (5 + (1 - new)) x with
    cur := { s.cur with sloush := setNth s.cur.sloush (1 - new) (sha384 (s.imageBytes x)), sloushAt := Vector.replicate 2 x } }

/-- A pair stands where the other stood at the end of a takeover; the trap queue is taken from the committed read count, and what the old
supervisor had read beyond it is delivered again (13 R276, R409). After a planned takeover the old pair loads the new one's image (18 R394). -/
def State.swapPairs (s : State) : State :=
  let planned := s.cur.planned
  let c := (s.cur.turn .standby .active).turn .held (if planned then .standby else .stopped)
  let s := (({ s with cur := { c with takeover := false, planned := false, refreshed := s.cycle, tqrd := s.cur.committedRd } } : State).repost).send .irqPairD
  if planned then s.loadOld else s

/-! ### DUTY (13 R290) -/

/-- Every open stack of a core becomes ready. -/
def Core.openReady (k : Core) (now : Nat) : Core :=
  { k with passes := k.passes.foldl (fun l p => if p.member ∧ !p.ready then readyStack now p.stack l else l) k.passes }

/-- A write of DUTY: bits [63:8] are reserved; bit 1 makes the open stacks ready at once, and each other bit acts at its function's next
point. -/
def State.writeDuty (s : State) (v : Word) : State :=
  let s : State := { s with duty := v.toNat % 256 }
  if s.duty.testBit 1 then { s with cores := s.cores.map (fun e => (e.1, e.2.openReady (e.2.unitCycles 2 s.cycle))) } else s

def execDutyWrite (v : Word) (s : State) : Res := s.bySupervisor (fun s => s.writeDuty v)

end Sys2Proof.Machine
end

