-- ==== Sys2Proof/Machine/Power.lean ====
section
/-! DEFINITION. Power requests, the ladder's closed loop, current buckets, thermal sensors and the power-fail archive (17 R370-R387). -/

namespace Sys2Proof.Machine

/-! ### Requests (17 R372) -/

/-- Changes the power registers and grants the level they come to. -/
def State.grant (s : State) (f : Power → Power) : State :=
  let p := f s.power
  { s with power := { p with level := p.granted } }

/-- PSTEP_REQUEST: every strobe is sampled, whether or not the pins are accepted. -/
def execPstepRequest (level : Nat) (s : State) : Res := .next (s.grant (fun p => { p with pinreq := level % 8 }))

/-- The Curator address of the power registers, and of PKEY among them. -/
def powerReg : Nat := 0x4400000000

/-- The tag of a power message (17 R372). -/
def powerTag (key : BitVec 256) (level : Nat) (nonce : Word) : Word :=
  gmac key (beBytes 8 nonce.toNat ++ beBytes 4 0) (natLe 4 level ++ natLe 4 0 ++ natLe 8 nonce.toNat)

/-- POWER_MESSAGE: judged as a notify is, by its form, its tag and its nonce; a dropped one is counted. -/
def execPowerMessage (level : Nat) (nonce tag : Word) (reserved : Bool) (s : State) : Res :=
  if reserved ∨ s.power.faben = false ∨ 8 ≤ level ∨ tag ≠ powerTag (s.key256 (powerReg + 0x20)) level nonce ∨ nonce.toNat ≤ s.power.pnonce.toNat then
    .next { s with power := { s.power with counted := min (s.power.counted + 1) 0xFFFFFFFF } }
  else .next (s.grant (fun p => { p with pnonce := nonce, fabreq := level }))

def execFwreqWrite (level : Nat) (s : State) : Res := .next (s.grant (fun p => { p with fwreq := level % 8 }))

/-! ### The closed loop (17 R374-R375) -/

/-- LADDER_RAISE: from 500 µs after a step down, with PMEAS above the cap for 100 µs, one step more every 50 µs. -/
def execLadderRaise (s : State) : Res :=
  let p := s.power
  match p.downAt, p.overSince with
  | some d, some o =>
    if d + micros 500 ≤ s.cycle ∧ o + micros 100 ≤ s.cycle ∧ p.lastRaise + micros 50 ≤ s.cycle ∧ p.depth < 7 then
      .next { s with power := { p with depth := p.depth + 1, lastRaise := s.cycle } }
    else .next s
  | _, _ => .next s

/-- LADDER_RELEASE: with no core pending and PMEAS below 95 % of the cap for 100 µs, one step fewer, once per 100 µs; not while pair C sets
the depth. -/
def execLadderRelease (s : State) : Res :=
  let p := s.power
  match p.underSince with
  | some u =>
    if !s.assistedPower && decide (u + micros 100 ≤ s.cycle) && decide (p.lastFall + micros 100 ≤ s.cycle)
        && s.cores.all (fun e => e.2.pendingStep.isEmpty) && decide (0 < p.depth) then
      .next { s with power := { p with depth := p.depth - 1, lastFall := s.cycle } }
    else .next s
  | none => .next s

/-- STEP_LIMIT_EXPIRY: STEPACT reads 0 again 1 ms after the latest step down. -/
def execStepLimitExpiry (s : State) : Res :=
  match s.power.stepAt with
  | some t => .next (if t + micros 1000 ≤ s.cycle then { s with power := { s.power with stepAt := none } } else s)
  | none => .next s

/-- A write of DEPTH: ignored with DUTY bit 4 clear, and during a takeover, when the ladder runs in silicon. -/
def State.writeDepth (s : State) (depth : Nat) : State :=
  if s.duty.testBit 4 && !s.cur.takeover then { s with power := { s.power with depth := depth % 8 } } else s

def execDepthWrite (depth : Nat) (s : State) : Res := .next (s.writeDepth depth)

/-! ### Current buckets (17 R378) -/

/-- A write of a bucket register, which acts at the next reference cycle. -/
def State.writeBucket (s : State) (c : CoreId) (cls : Nat) (v : Word) : State :=
  s.modCore c (fun k => { k with bucketNew := k.bucketNew ++ [(cls, v)] })

/-- BUCKET_WRITE: Curator S writes it through the core register window. -/
def execBucketWrite (core : CoreId) (cls : Nat) (v : Word) (s : State) : Res := s.bySupervisor (fun s => s.writeBucket core cls v)

/-! ### Sensors (17 R381-R383) -/

/-- A sensor of a die, 12 being the Curator's. -/
def State.sensor (s : State) (d i : Nat) : Sensor := Table.get {} s.sensors (16 * d + i)
/-- Writes a sensor. -/
def State.setSensor (s : State) (d i : Nat) (x : Sensor) : State := { s with sensors := Table.put s.sensors (16 * d + i) x }

/-- Degrees in sixteenths. -/
def degrees (n : Int) : Int := n * 16

/-- Whether a sensor may be used by its neighbours. -/
def Sensor.usable (x : Sensor) : Bool := (x.status == 0 || x.status == 3) && !x.excl

/-- The span of some readings. -/
def spanOf (l : List Int) : Int := l.foldl max (l.headD 0) - l.foldl min (l.headD 0)

/-- What the rules say of a sensor whose RAW stands in it, from its neighbours, with their samples: STATUS and USED, or neither by rule 1.
`ok` are the neighbours usable before this sample. -/
def Sensor.judge (x : Sensor) (near ok : List Sensor) : Option (Nat × Int) :=
  let hot := ok.map (fun y => y.raw)
  let stuck := decide (x.hist.length = 64) && x.hist.all (fun r => r == x.raw)
  if x.excl then none
  else if x.raw < degrees (-10) ∨ degrees 140 < x.raw then some (1, degrees 140)
  else if stuck && ok.any (fun y => decide (degrees 2 < spanOf y.hist)) then some (2, hot.foldl max (hot.headD (degrees 140)))
  else if ok.length = near.length ∧ near.all (fun y => decide (degrees 12 < (x.raw - y.raw).natAbs)) = true then
    some (3, (near.map (fun y => y.raw)).foldl max x.raw)
  else some (0, x.raw)

/-- The sensor after its judgement: STATUS 1 and 2 persist until the condition has been clear for 64 samples. -/
def Sensor.settle (x : Sensor) (near ok : List Sensor) : Sensor :=
  match x.judge near ok with
  | none => x
  | some (st, used) =>
    let hot := ok.map (fun y => y.raw)
    if (x.status = 1 ∨ x.status = 2) ∧ st ≠ x.status ∧ x.clear + 1 < 64 ∧ st ≠ 1 ∧ st ≠ 2 then
      { x with clear := x.clear + 1, used := if x.status = 1 then degrees 140 else hot.foldl max (hot.headD (degrees 140)) }
    else { x with status := st, used := used, clear := 0, alm := x.alm || (st != x.status && st != 0) }

/-- The temperature of a die: the greatest USED of the sensors not excluded, or 140 °C (17 R384). -/
def State.dieTemp (s : State) (d : Nat) : Int :=
  let l := ((List.range 16).map (s.sensor d)).filter (fun x => !x.excl)
  (l.map (fun x => x.used)).foldl max (match l with | [] => degrees 140 | x :: _ => x.used)

/-! ### The archive (17 R386-R387) -/

/-- The words of a queue's descriptor (14 R291). -/
def State.descriptor (s : State) (q : Nat) : List Nat :=
  let x := s.queue q
  let lend := match s.lends q with | some g => 1024 + g | none => 0
  [ x.failrun * 2 ^ 32 + x.part * 2 ^ 26 + x.tickets * 2 ^ 16 + x.reason * 2 ^ 8 + (if x.quar then 8 else 0) + (if x.urgent then 4 else 0) + x.state,
    x.head.toNat * 2 ^ 32 + x.tail.toNat, x.fails * 2 ^ 32 + x.done.toNat, x.pass, x.nonce.toNat, x.asid * 2 ^ 32 + x.epos, x.lastseq, lend ]

/-- The marks entry of an engine of a slot: its progress area and its record's VA. -/
def Stream.markEntry (x : Stream) : List Byte :=
  match x.current with
  | none => List.replicate 32 0
  | some r => natLe 4 r.acc ++ ((List.range 6).map (fun l => natLe 2 (r.mi.getD l 0))).flatten ++ natLe 8 r.va ++ List.replicate 8 0

/-- The cores of the package, die-major. -/
def allCores : List CoreId := ((List.range 12).map (fun d => (List.range 64).map (fun c => (⟨d, c⟩ : CoreId)))).flatten

/-- The six sections of the archive image; the journal's pointers are the count of its records and the committed read count (log entry 36). -/
def State.sections (s : State) : List (List Byte) :=
  let ctxs : List CtxId := (allCores.map (fun c => (List.range 5).map (CoreId.ctx c))).flatten
  let words (l : List Nat) : List Byte := (l.map (natLe 8)).flatten
  let vault (k n : Nat) : List Byte := ((List.range n).map (fun i => natLe 8 (s.word (k + i)).toNat)).flatten
  let engines (c : CtxId) : List Byte := (engineKinds.map (fun k => (s.stream (c.agent k)).markEntry)).flatten
  [ (ctxs.map (fun c => words ((s.ctx c).snapshot c.ctx))).flatten,
    ((List.range 12).map (fun d => vault (dieWord d 0) 16384)).flatten ++ vault (pkgWord 0) 65536,
    ((allCores.map CoreId.slots).flatten.map engines).flatten,
    s.rdN (admAt 0) 0x400000 ++ ((List.range 1024).map (fun q => words (s.descriptor q))).flatten,
    (ctxs.map (fun c => s.rdN (scratchAt c.die (reportAddr c)) 256)).flatten,
    s.rdN (journalAt 0) 0x100000 ++ natLe 8 s.cur.records ++ natLe 8 s.cur.committedRd ]

/-- The offsets of consecutive sections. -/
def offsetsFrom : Nat → List (List Byte) → List Nat
  | _, [] => []
  | o, b :: t => o :: offsetsFrom (o + b.length) t

/-- The archive image of a cause. -/
def State.archiveImage (s : State) (cause : Nat) : List Byte :=
  let l := s.sections
  let body := l.flatten
  let len := (body.length + 4095) / 4096 + 1
  let body := body ++ List.replicate ((len - 1) * 4096 - body.length) 0
  let head := natLe 8 (s.power.archseq + 1) ++ natLe 4 len ++ natLe 4 cause
    ++ (((offsetsFrom 4096 l).zip l).map (fun e => natLe 4 e.1 ++ natLe 4 e.2.length ++ natLe 8 0)).flatten
    ++ beBytes 48 (sha384 body).toNat ++ natLe 8 s.cycles
  head ++ List.replicate (4096 - head.length) 0 ++ body

/-- The sequence number of a slot of the flash that holds a valid image. -/
def State.slotSeq (s : State) (at_ : Nat) : Option Nat :=
  let len := s.rdNat (flashAt (at_ + 8)) 4
  let body := s.rdN (flashAt (at_ + 0x1000)) (min (len - 1) 4095 * 4096)
  if 1 ≤ len ∧ len ≤ 4096 ∧ s.rdN (flashAt (at_ + 0x70)) 48 = beBytes 48 (sha384 body).toNat then some (s.rdNat (flashAt at_) 8) else none

/-- The slot the next image goes to: the one that does not hold the highest valid sequence, a free choice when neither is valid. -/
def State.archiveSlot (s : State) : Nat :=
  match s.slotSeq s.power.archA, s.slotSeq s.power.archB with
  | some a, some b => if a < b then s.power.archA else s.power.archB
  | some _, none => s.power.archB
  | none, some _ => s.power.archA
  | none, none => if Config.freeBit s.freeCtr then s.power.archA else s.power.archB

/-- The power-fail sequence: cause 0x12 to the monitor, the image of the instant at which every agent stopped to flash, and power off. With less
than the charge of 12 J that the sequence counts on, it may run out before the header, which it writes last: the slot is then left invalid
(17 R386-R387; a free choice). -/
def State.powerFail (s : State) (cause : Nat) : State :=
  let s := s.post ⟨0x12, 0, 0, 15, 0, 0, 5, 0⟩
  let bytes := s.archiveImage cause
  let short := decide (s.power.charge < 12000) && Config.freeBit (s.freeCtr + 1)
  let at_ := flashAt s.archiveSlot
  let s := if short then (s.clearRange at_ 4096).storeAt (at_ + 4096) (bytes.drop 4096) else s.storeAt at_ bytes
  ({ s with power := { s.power with archseq := if short then s.power.archseq else s.power.archseq + 1 }, freeCtr := s.freeCtr + 2,
            mode := .off } : State).send .poweredOff

/-- PFAIL, from any state of a module that has power (16 R369). -/
def execPfail (cause : Nat) (s : State) : Res := if s.mode = .off then .next s else .next (s.powerFail cause)

/-! ### Sampling and thermal control (17 R383-R384) -/

/-- The trim of a sensor. -/
def State.trim (s : State) (d i : Nat) : Int :=
  match s.service.scal.find? (fun e => e.1 == 16 * d + i) with
  | some e => e.2
  | none => 0

/-- Takes one sample of a die's chain: every RAW first, then every judgement from the neighbours as they were. -/
def State.sampleDie (s : State) (d : Nat) (raws : List (BitVec 16)) : State :=
  let old := (List.range 16).map (s.sensor d)
  let fresh := (numbered old).map (fun e =>
    let r := ((raws.getD e.1 0).toInt + s.trim d e.1)
    { e.2 with raw := r, hist := (r :: e.2.hist).take 64 })
  let at_ (i : Nat) : Sensor := fresh.getD i {}
  let done := (numbered fresh).map (fun e =>
    let near := [at_ ((e.1 + 15) % 16), at_ ((e.1 + 1) % 16)]
    e.2.settle near (near.filter Sensor.usable))
  let news (e : Sensor × Sensor) : Bool := e.1.status != e.2.status && e.2.status != 0
  let s := (numbered done).foldl (fun s e => s.setSensor d e.1 e.2) s
  ((numbered (old.zip done)).filter (fun e => news e.2)).foldl (fun s e => s.send (.irqPairC d e.1)) s

/-- What the temperature of a die asks for at once: a stage die is held at step 7 from TJTRIP until it is below TJTHR; the Curator die, which is
never held, runs the power-fail sequence at TJTRIP. -/
def State.trip (s : State) (d : Nat) : State :=
  let t := s.dieTemp d
  if 12 ≤ d then (if degrees s.power.tjtrip ≤ t ∧ s.mode ≠ .off then s.powerFail 3 else s)
  else if degrees s.power.tjtrip ≤ t then s.modDie d (fun y => { y with tripped := true })
  else if t < degrees s.power.tjthr then s.modDie d (fun y => { y with tripped := false })
  else s

/-- When the next sample of a die's sensors is due: every 100 µs (17 R381). -/
def State.sampleDue (s : State) (d : Nat) : Nat := s.power.sampled.getD d 0 + micros 100

/-- SENSOR_SAMPLE: the readings of a die's sensors, once per period. -/
def execSensorSample (die : Nat) (raws : List (BitVec 16)) (s : State) : Res :=
  if 13 ≤ die ∨ s.cycle < s.sampleDue die then .next s
  else
    let s := s.sampleDie die raws
    .next (({ s with power := { s.power with sampled := setNth s.power.sampled die s.cycle } } : State).trip die)

/-- A write of a sensor entry: a 1 clears ALM; EXCL is taken with DUTY bit 5 set, outside a takeover, and ends a STATUS that persists. The die's
temperature is then judged again. -/
def State.writeSensor (s : State) (d i : Nat) (v : Word) : State :=
  let x := s.sensor d i
  let x : Sensor := if wbit v 36 then { x with alm := false } else x
  let x : Sensor := if s.duty.testBit 5 && !s.cur.takeover then { x with excl := wbit v 35, clear := 64 } else x
  (s.setSensor d i x).trip d

def execSensWrite (die i : Nat) (v : Word) (s : State) : Res := .next (s.writeSensor die i v)

/-- THERMAL_DEPTH_RAISE: at TJTRIP the die is held; from TJTHR its depth rises above the package's by 1 every 1 ms. -/
def execThermalDepthRaise (die : Nat) (s : State) : Res :=
  let s := s.trip die
  let y := s.die die
  if degrees s.power.tjthr ≤ s.dieTemp die ∧ y.overTemp + micros 1000 ≤ s.cycle then
    .next (s.modDie die (fun y => { y with depth := min 7 (max y.depth s.power.depth + 1), overTemp := s.cycle }))
  else .next s

/-- THERMAL_DEPTH_FALL: 5 °C below TJTHR the die's depth falls by 1 every 10 ms, down to the package's. -/
def execThermalDepthFall (die : Nat) (s : State) : Res :=
  let y := s.die die
  if s.dieTemp die < degrees s.power.tjthr - degrees 5 ∧ y.overTemp + micros 10000 ≤ s.cycle ∧ s.power.depth < y.depth then
    .next (s.modDie die (fun y => { y with depth := y.depth - 1, overTemp := s.cycle }))
  else .next s

end Sys2Proof.Machine
end

