-- ==== Sys2Proof/Machine/Bringup.lean ====
section
/-! DEFINITION. Cold reset and bring-up, attestation, fencing, live update and repair (18 R388-R396), and the supervisor's register writes
without a row of their own (00 R6, 13 R272, 14 R291, 15 R334, 17 R370, 18 R390). -/

namespace Sys2Proof.Machine

/-! ### Bring-up (18 R388-R391) -/

/-- What stays when power has gone: the board flash with its layout, the fuses, the package's straps and the model's own scheduling fields. ARCHSEQ is the number
of the last archive written. -/
def State.unpowered (s : State) : State :=
  let flash (a : Nat) : Bool := decide (2 ^ 52 ≤ a) && decide (a < 2 ^ 53)
  let r : State := { State.reset with mem := s.mem.filter (fun c => flash c.1), ecc := s.ecc.filter flash, pkg := s.pkg, agenda := s.agenda }
  { r with turn := s.turn, agent := s.agent, outbox := s.outbox, freeCtr := s.freeCtr, nextId := s.nextId,
           power := { r.power with archseq := s.power.archseq }, service := { r.service with fused := s.service.fused, rootHash := s.service.rootHash, flash := s.service.flash } }

/-- A word of a table of conservator values. -/
def tableWord (bs : List Byte) (i : Nat) : Nat := leNat ((bs.drop (8 * i)).take 8)

/-- The conservator tables that an image holds: their values as 8-byte words in order (log entry 95): the manual gives no layout. -/
def tablesIn (bs : List Byte) : ConsTables :=
  let w := tableWord bs
  ⟨zx (w 0), w 1, tabulate 4 (fun i => w (2 + i)), tabulate 5 (fun i => w (6 + i)), tabulate 5 (fun i => w (11 + i)), tabulate 5 (fun i => w (16 + i)), w 21⟩

/-- An accepted image is loaded and measured: the key manifest into the ROM's scratch, the monitor and Sloush into supervisor memory, the docent firmware into every core's docent
memory, the tables into every core's conservator (18 R388-R389). -/
def State.loadImage_ (s : State) (i : Nat) : State :=
  let x := s.bootImage i
  let bs := s.imageBytes x
  let s : State := { s with service := s.service.extend i (sha384 bs) }
  match i with
  | 0 => { s with service := { s.service with imageKey := s.manifestKey } }
  | 1 => s.storeAt (supAt (Config.imageBase 1 % 0x300000)) bs
  | 2 => ({ s with cur := { s.cur with sloush := Vector.replicate 2 (sha384 bs), sloushAt := Vector.replicate 2 x } } : State).storeSloush 2 x
  | 3 => allCores.foldl (fun s c => s.storeAt (docentAt c 0) (bs.take 8192)) s
  | _ => { s with service := { s.service with tables := tablesIn bs } }

/-- The first images of the chain are loaded. -/
def State.loadImages (s : State) (n : Nat) : State := (List.range n).foldl State.loadImage_ s

/-- The charge in mJ that a start asks for (17 R386). -/
def chargeFloor : Nat := 12000

/-- A core as the loaded tables leave it. -/
def State.bootCore (s : State) (c : CoreId) : State := (s.setCore c { buckets := tableBuckets s.service.tables }).restartCore c

/-- What pair B takes for its copy of the supervisor's registers (13 R275). -/
def State.baseNow (s : State) : Base :=
  ⟨s.regs, s.duty, s.service.livedie, s.service.livecore, (Table.keys s.queues).map (fun q => (q, (s.queue q).asid))⟩

/-- COLD_RESET: once the input is good and the charge is 12 J (17 R386), the boot ROM verifies and loads the chain, which stops in reset at the first image
that fails; a chain that succeeds has reached stage 1, before any pair but D runs (18 R388, R391). The level the pins ask for is the one granted, without a
step. -/
def execColdReset (boot : ColdBoot) (s : State) : Res :=
  if !boot.inputGood || decide (boot.charge < chargeFloor) then .next s
  else
    let s := s.unpowered.grant (fun p => { p with pinreq := boot.pins % 8, charge := boot.charge })
    let s : State := { s with power := { s.power with settled := s.power.level, was := s.power.level } }
    let n := s.failing
    if n ≠ 0 then
      let s := s.loadImages (n - 1)
      .next { s with service := { s.service with failImage := n } }
    else
      let s := s.loadImages 5
      .next { s with mode := .running, service := { s.service with stage := 1 }, cur := { s.cur with pairs := #v[.stopped, .stopped, .stopped, .service] } }

/-- The stage of the bring-up that a result belongs to. -/
def StageResult.stage : StageResult → Nat
  | .start => 2
  | .vats _ => 3
  | .ring _ => 4
  | .selfTest .. => 5
  | .masks _ => 6
  | .links _ => 7
  | .queues => 8

/-- A link takes its key. -/
def State.keyLink (s : State) (l : Nat) (key : BitVec 256) : State := s.modLink l (fun x => { x with keys := setNth x.keys 0 key })

/-- What a stage of the bring-up does (18 R391): the pairs start; dies that fail stage 3 or 5, or whose vault fails, are left out of LIVEDIE; the die memories of stage
5 are cleared and the cores start as the loaded tables leave them; Sloush writes the live masks and the partitions; and a link to another package is in service once it has its key and
its peer's measurements are accepted. -/
def State.doStage (s : State) (r : StageResult) : State :=
  match r with
  | .start =>
    let s : State := { s with cur := { s.cur with pairs := #v[.active, .standby, .service, .service], harts := .replicate 4 bootHart, refreshed := s.cycle } }
    { s with cur := { s.cur with base := s.baseNow } }
  | .vats dies => { s with service := { s.service with trained := dies % 2 ^ 12 } }
  | .ring keys => keys.foldl (fun s e => s.keyLink e.1 e.2) s
  | .selfTest dies vaults cores =>
    let s := (List.range 12).foldl (fun s d => s.clearRange (scratchAt d 0) 0x0C000000) { s with vault := [], vaultBad := [] }
    let s := allCores.foldl State.bootCore s
    { s with service := { s.service with tested := dies % 2 ^ 12, testedCores := tabulate 12 (fun d => cores.getD d 0 % 2 ^ 64),
                                         vaultFail := (2 ^ 12 - 1) ^^^ (vaults % 2 ^ 12) } }
  | .masks parts =>
    let v := s.service
    let s : State := { s with service := { v with livedie := v.trained &&& v.tested &&& ((2 ^ 12 - 1) ^^^ v.vaultFail), livecore := v.testedCores } }
    let s := (numbered (parts.take 4)).foldl (fun s e => (s.writePart e.1 e.2.1).setReg (0x4301000008 + 16 * e.1) e.2.2) s
    { s with cur := { s.cur with base := s.baseNow } }
  | .links peers =>
    peers.foldl (fun s e => (s.keyLink e.1 e.2.1).modLink e.1 (fun l => { l with down := !Config.peerAccepted e.1 e.2.2 })) s
  | .queues => s

/-- A stage follows the one before it. -/
def State.nextStage (s : State) (r : StageResult) : State :=
  if s.mode = .running ∧ s.service.stage + 1 = r.stage ∧ 1 ≤ s.service.stage then
    let s := s.doStage r
    { s with service := { s.service with stage := r.stage } }
  else s

/-! ### Attestation (18 R389) -/

/-- BOOTST (18 R390). -/
def Service.bootst (v : Service) : Nat := v.failImage * 256 + v.stage

/-- Pair D's answer to a request: while the module stays in reset, that status and nothing else (18 R388). -/
def State.spdm (s : State) (kind : Nat) (data : List Byte) : Res :=
  if s.mode = .off ∨ s.cur.pair 3 ≠ .service then .next s
  else if s.mode = .reset then .next (s.send (.spdm (Config.spdmAnswer 7 (natLe 8 s.service.bootst))))
  else .next (s.send (.spdm (Config.spdmAnswer kind data)))

/-- The measurement registers, in order. -/
def Service.measured (v : Service) : List Byte := (v.meas.toList.map (fun m => beBytes 48 m.toNat)).flatten

def execGetVersion (s : State) : Res := s.spdm 0 []
def execGetCapabilities (s : State) : Res := s.spdm 1 []
def execNegotiateAlgorithms (s : State) : Res := s.spdm 2 []
def execGetDigests (s : State) : Res := s.spdm 3 []
def execGetCertificate (s : State) : Res := s.spdm 4 []
def execChallenge (nonce : BitVec 256) (s : State) : Res := s.spdm 5 (beBytes 32 nonce.toNat ++ s.service.measured)

/-- GET_MEASUREMENTS: index n + 1 reports MEASn. -/
def execGetMeasurements (index : Nat) (s : State) : Res :=
  s.spdm 6 (natLe 1 index ++ (if 1 ≤ index ∧ index ≤ 16 then beBytes 48 (s.service.meas.getD (index - 1) 0).toNat else []))

/-! ### Fencing (18 R392) -/

/-- A write of LIVECORE of a die, or with 12 of LIVEDIE; offers take the masks as they stand. A core returned to service is so from the next offer to its
die on, and a die whose vault has failed is never live (18 R391-R392). -/
def State.writeLiveMask (s : State) (which : Nat) (v : Word) : State :=
  let x := s.service
  if which < 12 then
    let back := (List.range 64).filter (fun c => wbit v c && !(x.livecore.getD which 0).testBit c)
    { s with service := { x with livecore := setNth x.livecore which v.toNat, reopened := (x.reopened ++ back.map (fun c => (which, c))).eraseDups } }
  else { s with service := { x with livedie := wfld v 0 12 - (wfld v 0 12 &&& x.vaultFail) } }

def execLiveMaskWrite (which : Nat) (v : Word) (s : State) : Res := s.bySupervisor (fun s => s.writeLiveMask which v)

/-! ### Live update (18 R393) -/

/-- The core DOCUPD names. -/
def Service.docTarget (v : Service) : CoreId := ⟨v.docDie, v.docCore⟩

/-- The kind of image that a write of DOCUPD is for. -/
def UpdImage.kind : UpdImage → Nat
  | .docent => 3
  | .tables => 4

/-- Pair D verifies an image for a live update as at boot (18 R393): its kind, place and digest are noted. -/
def State.verifyUpdate (s : State) (kind : Nat) (x : ImageRef) : State :=
  if s.mode = .running ∧ s.cur.pair 3 = .service ∧ (kind = 3 ∨ kind = 4) ∧ x.flash = false ∧ s.accepts s.service.imageKey kind x = true then
    { s with service := { s.service with verified := ⟨kind, x.at_, x.len, sha384 (s.imageBytes x)⟩ :: s.service.verified } }
  else s

/-- The verified image of a kind that stands at an address of supervisor memory, its bytes those that were verified. -/
def State.verifiedAt (s : State) (kind src : Nat) : Option Verified :=
  s.service.verified.find? (fun e => e.kind == kind && e.src == src && sha384 (s.imageBytes { flash := false, at_ := src, len := e.len }) == e.digest)

/-- DOCUPD: a load starts for an image pair D has verified, and fails at once for any other; a second write while BUSY is ignored. -/
def execDocupd (v : Word) (image : UpdImage) (s : State) : Res :=
  if !s.supervised || s.service.docLoading then .next s
  else
    let start := wbit v 0
    let src := wfld v 38 26 * 64
    let found := (s.verifiedAt (UpdImage.kind image) src).filter (fun _ => decide (wfld v 10 4 < 12))
    let x : Service := { s.service with docSrc := src, docDie := wfld v 10 4, docCore := wfld v 4 6 }
    let x : Service := { x with docLoading := start && found.isSome, docRefused := if start then found.isNone else s.service.docRefused }
    match found, start with
    | some e, true =>
      let s : State := { s with service := { x with docLen := e.len } }
      match image with
      | .tables =>
        let bs := s.imageBytes { flash := false, at_ := src, len := e.len }
        .next (s.modCore x.docTarget (fun k => { k with newTables := some (tablesIn bs, sha384 bs, engineKinds.map AgentKind.num) }))
      | .docent => .next (s.modCore x.docTarget (fun k => { k with docBusy := true }))
    | _, _ => .next { s with service := x }

/-- The end of a docent's load: its memory takes the image, MEAS3 is extended, the docent restarts at index 0 and the traps held for it are
delivered. -/
def State.loadDocent (s : State) (c : CoreId) : State :=
  let d := c.ctx 4
  let image := s.imageBytes { flash := false, at_ := s.service.docSrc, len := s.service.docLen }
  let s := s.storeAt (docentAt c 0) (image.take 8192)
  let s : State := { s with service := { s.service.extend 3 (sha384 image) with docLoading := false } }
  let held := (s.core c).docHeld
  let s := (s.setCtx d {}).modCore c (fun k => { k with docBusy := false, docHeld := [] })
  held.foldl (fun s h => s.deliverUp (c.ctx h.1) h.2.2.2 h.2.1 h.2.2.1) s

/-- DOCUPD_COMPLETE: of a docent's image with the docent at PARK; of conservator tables once every engine has had its rolling reset, when they
are the core's and MEAS4 is extended (log entry 49). -/
def execDocupdComplete (s : State) : Res :=
  let c := s.service.docTarget
  if !s.service.docLoading then .next s
  else
    match (s.core c).newTables with
    | some (t, digest, []) =>
      .next { s.modCore c (fun k => { k with tables := some t, newTables := none }) with
              service := { s.service.extend 4 digest with docLoading := false } }
    | some _ => .next s
    | none => if (s.ctx (c.ctx 4)).park then .next (s.loadDocent c) else .next s

/-! ### Live repair (18 R395) -/

/-- A write of VATREP: a repair of the row of 2 KiB starts, unless one runs. -/
def State.writeVatrep (s : State) (die : Nat) (v : Word) : State :=
  if (s.die die).repairBusy then s
  else s.modDie die (fun y => { y with repairRow := wfld v 11 26, repairBusy := true, repairFail := false })

def execVatrep (die : Nat) (v : Word) (s : State) : Res := s.bySupervisor (fun s => s.writeVatrep die v)

/-- VATREP_COMPLETE: addresses, contents and uncorrectable words stay; with no spare row FAIL is set. -/
def execVatrepComplete (die : Nat) (ok : Bool) (s : State) : Res :=
  if (s.die die).repairBusy then .next (s.modDie die (fun y => { y with repairBusy := false, repairFail := !ok })) else .next s

/-! ### Register writes (00 R6) -/

/-- Replaces some bits of a word. -/
def keepBits (mask v : Word) : Word := v &&& mask

/-- A register of a context through the core register window: the write rights of 05 R121 do not bind the supervisor, but where a field is
fixed (13 R272). CYCLE counts on from what is written, and SLOT, COREID and PWRLVL keep it (log entry 87). -/
def State.writeCtxReg (s : State) (c : CtxId) (n : Nat) (v : Word) : State :=
  let k := s.core c.coreId
  if n = 0x000 then s.setCore c.coreId { k with cycleAdj := v - BitVec.ofNat 64 s.cycles }
  else if n = 0x001 then s.setCore c.coreId { k with slotSet := Table.put k.slotSet c.ctx (wfld v 0 3) }
  else if n = 0x002 then s.setCore c.coreId { k with idSet := some (wfld v 0 19) }
  else if n = 0x003 then s.setCore c.coreId { k with levelSet := some (wfld v 0 3, s.power.steps) }
  else if n = 0x004 then s.modCtx c (fun x => { x with sched := keepBits 0xFFFFFFFF00000003 v })
  else if n = 0x005 then
    let part (i : Nat) (old : Nat) : Nat := let f := wfld v (4 * i) 4; if 1 ≤ f ∧ f ≤ 8 then f else old
    s.setCore c.coreId { k with clkdiv := tabulate 5 (fun i => part i (k.clkdiv.getD i 1)) }
  else if n = 0x006 then s.modVe c (fun x => { x with shadow := { x.shadow with tile := wfld v 0 4, half := wfld v 4 1 } })
  else if 0x010 ≤ n ∧ n ≤ 0x017 then s.modCtx c (fun x => { x with lvx := setNth x.lvx (n - 0x010) v.toNat })
  else if 0x018 ≤ n ∧ n ≤ 0x01F then s.modCtx c (fun x => { x with lve := setNth x.lve (n - 0x018) v.toNat })
  else if 0x020 ≤ n ∧ n ≤ 0x02F then
    (if 1 ≤ wfld v 0 11 ∧ wfld v 0 11 ≤ 1024 then s.setCore c.coreId { k with lwallow := setNth k.lwallow (n - 0x020) (wfld v 0 11) } else s)
  else if n = 0x040 then
    s.modCtx c (fun x => { x with src := wfld v 8 4, depth := wfld v 4 4, wopen := wbit v 0,
                                  slotn := if c.ctx = 4 then wfld v 12 3 else x.slotn })
  else if n = 0x042 then s.modCtx c (fun x => { x with tcause := wfld v 0 8 })
  else if n = 0x043 then s.modCtx c (fun x => { x with tval := v })
  else if n = 0x044 then s.modCtx c (fun x => { x with trep := wfld v 0 32 })
  else s.writeStateReg c n v

/-- A word of the core register window (13 R272): DUTY at every core's number 0x200, and of context 4 the doorbell, SLOTCTL and the buckets. -/
def State.writeWindow (s : State) (c : CtxId) (n : Nat) (v : Word) : State :=
  if n = 0x200 then s.writeDuty v
  else if c.ctx = 4 ∧ n = 0x201 then s.doorbell c.coreId
  else if c.ctx = 4 ∧ n = 0x202 then s.writeSlotctl c.coreId v
  else if c.ctx = 4 ∧ 0x210 ≤ n ∧ n ≤ 0x214 then s.writeBucket c.coreId (n - 0x210) v
  else s.writeCtxReg c n v

/-- The fields of word 0 of a queue's descriptor but for QUAR and STATE (14 R291). -/
def Queue.writeHead (x : Queue) (v : Word) : Queue :=
  { x with part := wfld v 26 2, tickets := if wfld v 16 10 = 0 then x.tickets else wfld v 16 10, urgent := wbit v 2 }

/-- A word of a queue's descriptor (14 R291-R292): a write of word 0 lifts a quarantine with QUAR 0, and writes STATE; HEAD, TAIL and DONE are
taken while OFF or ERROR; the other fields are read-only. -/
def State.writeDescriptor (s : State) (q off : Nat) (v : Word) : State :=
  match off with
  | 0x00 =>
    let s := s.modQueue q (fun x => x.writeHead v)
    let s := if wbit v 3 then s else s.liftQuarantine q
    match wfld v 0 2 with
    | 0 => s.queueStop q
    | 1 => s.queueRun q
    | _ => s.emptyWindow q
  | 0x08 => (s.writeCount q 0 (BitVec.ofNat 32 (wfld v 32 32))).writeCount q 1 (BitVec.ofNat 32 (wfld v 0 32))
  | 0x10 => s.writeCount q 2 (BitVec.ofNat 32 (wfld v 0 32))
  | 0x18 => s.modQueue q (fun x => { x with pass := v.toNat })
  | 0x28 => s.modQueue q (fun x => { x with asid := wfld v 32 16 })
  | _ => s

/-- Whether an offset is a word that keeps whatever is written to it: a window descriptor's, whose reserved bits make it not valid (15 R335), or a
window key's. -/
def keptWhole (off : Nat) : Bool :=
  (decide (0x10000 ≤ off) && decide (off < 0x10200)) || (decide (0x11000 ≤ off) && decide (off < 0x11200))

/-- The bits a word of a lending entry keeps (15 R336); reserved ones follow 00 R6 (15 R334). -/
def lendMask (off : Nat) : Word :=
  match off % 32 with
  | 0 => 0xFFFFFFFFF80001FF
  | 8 => 0xFFF
  | _ => 0

/-- The bits a word of a group descriptor keeps (15 R338). -/
def groupMask (off : Nat) : Word :=
  match off % 256 with
  | 0 => 0x0000FFFF80007FFF
  | 8 => 0
  | n => if n % 16 = 0 then 0xFFFFFFFF00001FFF else 0xFFF

/-- A word of an ingress queue's authentication block: a key word sets the last nonce to 0 (15 R334, R337). -/
def State.writeIauth (s : State) (d off : Nat) (v : Word) : State :=
  let q := (off - 0x40000) / 64
  let pa := 0x4300000000 + d * 0x100000 + off
  if off % 64 < 0x20 then (s.setReg pa v).modDie d (fun y => { y with nonces := Table.put y.nonces q 0 })
  else if off % 64 = 0x20 then s.setReg pa (keepBits 0x1FF v)
  else if off % 64 = 0x28 then s.modDie d (fun y => { y with nonces := Table.put y.nonces q v })
  else s

/-- A verdict written to FRES (15 R328). -/
def State.writeFres (s : State) (d : Nat) (v : Word) : State :=
  match wfld v 8 2 with
  | 0 => s.fresRetry d (wfld v 0 8)
  | 1 => s.fresFail d (wfld v 0 8) 0x05
  | 2 => s.fresFail d (wfld v 0 8) 0x06
  | _ => s

/-- A fabric register of a die (15 R334). A window descriptor keeps reserved bits, which make it not valid. An INVPA with size 3 keeps the size it
had, which is the model's choice (log entry 98). TLBFILL fills at the write of its third
word (log entry 88). -/
def State.writeFabric (s : State) (d off : Nat) (v : Word) : State :=
  let pa := 0x4300000000 + d * 0x100000 + off
  match off with
  | 0x00 => s.setReg pa (keepBits 0x1FFFF80001 v)
  | 0x08 => s.writeInval d (wfld v 16 2) (wfld v 0 16)
  | 0x10 => s.setReg pa (keepBits 0xFFFFFFFFFF0000 v)
  | 0x18 => s.setReg pa (keepBits 0x1FFFFF0000 v ||| BitVec.ofNat 64 (if wfld v 0 2 = 3 then wfld (s.reg pa) 0 2 else wfld v 0 2))
  | 0x20 => s.setReg pa (keepBits 0xFFFFFFFFFFFFE000 v)
  | 0x28 => s.writeFres d v
  | 0x30 => s.setReg pa v
  | 0x38 => s.setReg pa (keepBits 0x3FFFF v)
  | 0x40 => s.fillTlb d (s.fab d 0x30).toNat (wfld (s.fab d 0x38) 0 16) (wfld (s.fab d 0x38) 16 2 + 1) v
  | 0x48 => if 10 ≤ wfld v 0 32 ∧ wfld v 0 32 ≤ 10000 then s.setReg pa (BitVec.ofNat 64 (wfld v 0 32)) else s
  | 0x50 => s.clearCounts d
  | 0x58 => if wbit v 0 then s.writeDiectl d else s
  | _ =>
    if keptWhole off then s.setReg pa v
    else if 0x20000 ≤ off ∧ off < 0x20200 then s.setReg pa (keepBits (lendMask off) v)
    else if 0x30000 ≤ off ∧ off < 0x34000 then s.setReg pa (keepBits (groupMask off) v)
    else if 0x40000 ≤ off ∧ off < 0x41000 then s.writeIauth d off v else s

/-- A fabric register of the package that Curator S writes (15 R334, 13 R409). -/
def State.writePackage (s : State) (off : Nat) (v : Word) : State :=
  let pa := 0x4301000000 + off
  if off < 0x40 ∧ off % 16 = 0 then s.writePart (off / 16) v
  else if off < 0x40 then (if s.partActive (off / 16) then s else s.setReg pa v)
  else if 0x100 ≤ off ∧ off < 0x200 ∧ off % 16 = 0 then
    s.modLink ((off - 0x100) / 16) (fun l => { (if l.epoch = wbit v 8 then l else l.flip) with parts := wfld v 0 4 })
  else if off = 0x208 then (if 1 ≤ wfld v 0 3 ∧ wfld v 0 3 ≤ 4 then s.resetPartition (wfld v 0 3 - 1) else s)
  else if off = 0x280 then ({ s with cur := { s.cur with tqbase := wfld v 17 15 * 2 ^ 17, tqSet := true } } : State).repost
  else if off = 0x290 then s.readTraps (wfld v 0 32)
  else if off = 0x2C0 then s.writePvallot v
  else if 0x300 ≤ off ∧ off < 0x340 then s.setReg pa (if off % 16 = 0 then keepBits 0x1FF v else v)
  else s

/-- A fabric register of the package that only Curator M writes (16 R365, 13 R409). -/
def monitorReg (off : Nat) : Bool := off == 0x200 || off == 0x298 || off == 0x2A8

/-- A write of such a register. -/
def State.writeMonitor (s : State) (off : Nat) (v : Word) : State :=
  if off = 0x200 then (if wbit v 0 then s.needPackageReset else s)
  else if off = 0x298 then { s with cur := { s.cur with mqbase := wfld v 13 19 * 2 ^ 13 } }
  else s.readMonitor (wfld v 0 32)

/-- Judges the temperature of every die again, the Curator's last. -/
def State.tripAll (s : State) : State := (List.range 13).foldl State.trip s

/-- A power register (17 R370). -/
def State.writePower (s : State) (off : Nat) (v : Word) : State :=
  if off = 0x00 then (s.grant (fun p => { p with faben := wbit v 13, pinen := wbit v 12, fwreq := wfld v 9 3 })).writeDepth (wfld v 14 3)
  else if off = 0x08 then { s with power := { s.power with map := tabulate 8 (fun l => wfld v (4 * l) 3) } }
  else if 0x20 ≤ off ∧ off < 0x40 then s.setReg (powerReg + off) v
  else if off = 0x40 then ({ s with power := { s.power with tjtrip := wfld v 8 8, tjthr := wfld v 0 8 } } : State).tripAll
  else if off = 0x50 then { s with power := { s.power with archA := wfld v 24 8 * 2 ^ 24 } }
  else if off = 0x58 then { s with power := { s.power with archB := wfld v 24 8 * 2 ^ 24 } }
  else if 0x1000 ≤ off ∧ off < 0x1680 then s.writeSensor ((off - 0x1000) / 128) ((off - 0x1000) / 8 % 16) v
  else s

/-- A service register (18 R390); the two words of SCAL that BYPASS and DOCUPD stand in are theirs (log entry 31), and DOCUPD, whose image
check no register value carries, has its row only. -/
def State.writeService (s : State) (off : Nat) (v : Word) : State :=
  if off = 0x008 then s.writeLiveMask 12 v
  else if 0x010 ≤ off ∧ off < 0x070 then s.writeLiveMask ((off - 0x010) / 8) v
  else if off = 0x080 then (if wbit v 0 then s.askSwap else s)
  else if 0x100 ≤ off ∧ off < 0x160 then s.writeVatrep ((off - 0x100) / 8) v
  else if off = 0x400 then s.writeBypass v
  else if 0x200 ≤ off ∧ off < 0x880 ∧ off ≠ 0x408 then
    let i := (off - 0x200) / 8
    { s with service := { s.service with scal := (i, signed 16 (wfld v 0 16)) :: s.service.scal.filter (fun e => e.1 != i) } }
  else s

/-- A 32-bit word of an ingress control block: STATE acts at any time, the geometry and the counts while it is STOPPED (03 R407). -/
def Icb.superviseWord (i : Icb) (off : Nat) (v : BitVec 32) : Icb :=
  if off = 0x10 then i.supervise (v.toNat % 4)
  else if i.state ≠ 2 then i
  else
    match off with
    | 0x00 => { i with base := v.toNat }
    | 0x04 => { i with slots := fld v.toNat 8 4, slsz := fld v.toNat 4 4 }
    | 0x08 => { i with head := v }
    | 0x0C => { i with tail := v }
    | _ => i

/-- The address of COUNTS of the Curator's station, 15 (17 R372; log entry 97). -/
def curatorCounts : Nat := 0x4300000000 + 15 * 0x100000 + 0x50

/-- The bits set in a word. -/
def setBits (v : Word) : List Nat := (List.range 64).filter (wbit v)

/-- An aligned 8-byte register of the Curator's physical space. -/
def State.writeRegister (s : State) (pa : Nat) (v : Word) : State :=
  if 0x4000000000 ≤ pa ∧ pa < 0x4000000000 + 12 * 0x400000 then
    let o := pa - 0x4000000000
    let x := o % 0x10000 / 0x2000
    if x ≤ 4 then s.writeWindow ⟨o / 0x400000, o % 0x400000 / 0x10000, x⟩ (o % 0x2000 / 8) v else s
  else if 0x4100000000 ≤ pa ∧ pa < 0x4100010000 then s.writeDescriptor ((pa - 0x4100000000) / 0x40) (pa % 0x40) v
  else if 0x4100020000 ≤ pa ∧ pa < 0x4100020080 then (setBits v).foldl (fun s b => s.clearError ((pa - 0x4100020000) * 8 + b)) s
  else if 0x4300000000 ≤ pa ∧ pa < 0x4300C00000 then s.writeFabric ((pa - 0x4300000000) / 0x100000) (pa % 0x100000) v
  else if pa = curatorCounts then s.clearCounts 15
  else if 0x4301000000 ≤ pa ∧ pa < 0x4301100000 then
    (if monitorReg (pa - 0x4301000000) then s.writeMonitor (pa - 0x4301000000) v else s.writePackage (pa - 0x4301000000) v)
  else if powerReg ≤ pa ∧ pa < powerReg + 0x2000 then s.writePower (pa - powerReg) v
  else if 0x4500000000 ≤ pa ∧ pa < 0x4500001000 then s.writeService (pa - 0x4500000000) v
  else s

/-- Whether an address lies in memory that Curator S reaches directly: admissions memory, a die's vats or scratchpad, or supervisor
memory. -/
def inMemory (pa : Nat) : Bool :=
  (decide (admAt 0 ≤ pa) && decide (pa < admAt 0x400000)) || (decide (vatAt 0 0 ≤ pa) && decide (pa < vatAt 12 0))
    || (decide (scratchAt 0 0 ≤ pa) && decide (pa < scratchAt 12 0) && decide ((pa - scratchAt 0 0) % 0x10000000 < 0x08000000))
    || (decide (supAt 0 ≤ pa) && decide (pa < supAt 0x300000))

/-- Whether an access would touch the row a die is repairing. -/
def State.vatBusy (s : State) (pa n : Nat) : Bool :=
  decide (vatAt 0 0 ≤ pa) && s.rowBusy ((pa - vatAt 0 0) / 0x2000000000) ((pa - vatAt 0 0) % 0x2000000000) n

/-- Whether an address lies in the ingress control blocks of some die (03 R407). -/
def inBlocks (pa : Nat) : Bool :=
  decide (0x4600000000 ≤ pa) && decide (pa < 0x46C0000000) && decide (0x0C000000 ≤ pa % 0x10000000) && decide (pa % 0x10000000 < 0x0C001000)
/-- The die and the ingress queue of an address of a control block. -/
def blockOf (pa : Nat) : Nat × Nat := ((pa - 0x4600000000) / 0x10000000, (pa % 0x10000000 - 0x0C000000) / 0x40)

/-- A write of `size` bytes at an address of the Curator's physical space; a register's of another size or alignment has no effect (log
entry 32). -/
def State.supWrite (s : State) (pa size v : Nat) : State :=
  if inMemory pa then (if s.vatBusy pa size then s else s.storeAt pa (natLe size v))
  else if 0x4100010000 ≤ pa ∧ pa < 0x4100018000 then
    (if size = 32 ∧ pa % 32 = 0 then (List.range 4).foldl (fun s i => s.setReg (pa + 8 * i) (BitVec.ofNat 64 (fld v (64 * i) 64))) s else s)
  else if inBlocks pa then
    (if size = 4 ∧ pa % 4 = 0 then
        let b := blockOf pa
        s.setIcb b.1 b.2 (((s.die b.1).icb b.2).superviseWord (pa % 0x40) (BitVec.ofNat 32 v))
      else s)
  else if size = 8 ∧ pa % 8 = 0 then s.writeRegister pa (BitVec.ofNat 64 v) else s

/-- Whether an address is a power register, which pair C reaches on the supervisor's behalf (17 R370). -/
def inPower (pa : Nat) : Bool := decide (powerReg ≤ pa) && decide (pa < powerReg + 0x2000)

/-- Whether an address is a register that only an active supervisor writes: SLOTCTL, DIECTL and PARTRST (16 R369). -/
def activeOnly (pa : Nat) : Bool :=
  (decide (0x4000000000 ≤ pa) && decide (pa < 0x4000000000 + 12 * 0x400000) && (pa - 0x4000000000) % 0x10000 == 4 * 0x2000 + 8 * 0x202)
    || (decide (0x4300000000 ≤ pa) && decide (pa < 0x4300C00000) && pa % 0x100000 == 0x58) || pa == 0x4301000208

/-- Whether someone who may write a register does so now (13 R269): only the monitor writes its own, an active supervisor any other; pair C, in
service, a power register; and the monitor, which may do what the levels below it may, every one but those that only an active supervisor
writes. -/
def State.mayWrite (s : State) (pa : Nat) : Bool :=
  if decide (0x4301000000 ≤ pa) && decide (pa < 0x4301100000) && monitorReg (pa - 0x4301000000) then s.monitored
  else s.supervised || (s.monitored && !activeOnly pa) || (inPower pa && decide (s.mode = .running) && s.cur.pair 2 == .service)

/-- REGISTER_WRITE. -/
def execRegisterWrite (pa size v : Nat) (s : State) : Res := .next (if s.mayWrite pa then s.supWrite pa size v else s)

/-! ### The end of a takeover (13 R276) -/

/-- Whether an address is a fabric or key register of whose changes the journal holds records (13 R275): page-table roots, notify keys, and window
and group descriptors but for the nonces, which the hardware counts on. -/
def journaled (pa : Nat) : Bool :=
  let off := pa % 0x100000
  (decide (0x4100010000 ≤ pa) && decide (pa < 0x4100018000))
    || (decide (0x4300000000 ≤ pa) && decide (pa < 0x4300C00000)
      && (off == 0 || (decide (0x10000 ≤ off) && decide (off < 0x10200) && off % 32 != 0x10) || (decide (0x30000 ≤ off) && decide (off < 0x34000))))

/-- The registers as the standby has them: what the failed supervisor has changed since is undone. -/
def State.undoUncommitted (s : State) : State :=
  let b := s.cur.base
  let keys := ((Table.keys s.regs ++ Table.keys b.regs).filter journaled).eraseDups
  let s := keys.foldl (fun s pa => s.setReg pa (Table.get (regReset pa) b.regs pa)) s
  let s := (Table.keys s.queues).foldl (fun s q => s.modQueue q (fun x => { x with asid := Table.get 0 b.asids q })) s
  let s : State := { s with service := { s.service with livedie := b.livedie, livecore := b.livecore } }
  if s.duty = b.duty then s else s.writeDuty (BitVec.ofNat 64 b.duty)

/-- The effect of a committed record: the final value of a register, a notify key's by its words. -/
def State.applyRecord (s : State) (pa : Nat) (v : Word) : State :=
  if 0x4100010000 ≤ pa ∧ pa < 0x4100018000 ∧ pa % 8 = 0 then s.setReg pa v else s.supWrite pa 8 v.toNat

/-- The supervisor's registers as the journal gives them: those of the base, then what has been committed, each register's last record in the order of the
commits. -/
def State.replay (s : State) : State :=
  let s := (s.cur.copy.filter (fun e => e.1 != tqrdReg)).foldl (fun s e => s.applyRecord e.1 e.2) s.undoUncommitted
  { s with cur := { s.cur with base := s.baseNow } }

/-- Sloush rebuilds its state from the journal after a package reset (16 R365). -/
def State.rebuildFromJournal (s : State) : State := if s.cur.rebuild then { s with cur := { s.cur with rebuild := false } }.replay else s

/-- TAKEOVER_COMPLETE: the standby goes by its own copy, in which a change that was not committed is absent, applies what has been committed, and
is active; the old pair is the standby after a planned takeover, and else awaits its self-test. A package reset that waited runs now (16
R369). -/
def execTakeoverComplete (s : State) : Res :=
  if !s.cur.takeover then .next s
  else
    let s := s.replay.swapPairs
    .next (if s.cur.pkgReset then s.resetPackage else s)

/-! ### Register reads -/

/-- A bucket as read: its balance in units, RATE and CAP (17 R378). -/
def Bucket.read (b : Bucket) : Word := BitVec.ofInt 64 (b.bal / 16 * 2 ^ 32) ||| BitVec.ofNat 64 (b.rate * 2 ^ 16 + b.cap)

/-- A word of the core register window; a number that names no register reads 0 (13 R272). -/
def State.readWindow (s : State) (c : CtxId) (n : Nat) : Word :=
  if c.ctx = 4 ∧ n = 0x202 then s.readSlotctl c.coreId
  else if c.ctx = 4 ∧ 0x210 ≤ n ∧ n ≤ 0x214 then ((s.core c.coreId).buckets.getD (n - 0x210) {}).read
  else s.stateReg c n

/-- A fabric register of a die as read; key words read 0 (15 R334). -/
def State.readFabric (s : State) (d off : Nat) : Word :=
  let y := s.die d
  match off with
  | 0x08 => if y.invalDone then BitVec.ofNat 64 (2 ^ 63) else 0
  | 0x28 => 0
  | 0x40 => 0
  | 0x50 => BitVec.ofNat 64 (y.late + y.unauth * 2 ^ 32)
  | 0x58 => if y.resetAt.isSome then 1 else 0
  | _ =>
    if 0x11000 ≤ off ∧ off < 0x11200 then 0
    else if 0x40000 ≤ off ∧ off < 0x41000 then
      (if off % 64 < 0x20 then 0 else if off % 64 = 0x28 then y.nonce ((off - 0x40000) / 64) else s.fab d off)
    else s.fab d off

/-- A fabric register of the package as read. -/
def State.readPackage (s : State) (off : Nat) : Word :=
  if 0x100 ≤ off ∧ off < 0x200 then
    (if off % 16 = 0 then
        let l := s.link ((off - 0x100) / 16)
        BitVec.ofNat 64 (l.parts + (if l.epoch then 2 ^ 8 else 0) + (if l.failed then 2 ^ 9 else 0))
      else 0)
  else
    match off with
    | 0x200 | 0x208 => 0
    | 0x280 => BitVec.ofNat 64 s.cur.tqbase
    | 0x288 => BitVec.ofNat 64 (s.cur.tqwr % 2 ^ 32)
    | 0x290 => BitVec.ofNat 64 s.cur.tqrd
    | 0x298 => BitVec.ofNat 64 s.cur.mqbase
    | 0x2A0 => BitVec.ofNat 64 (s.cur.mqwr % 2 ^ 32)
    | 0x2A8 => BitVec.ofNat 64 s.cur.mqrd
    | 0x2C0 => BitVec.ofNat 64 (s.pvLast * 2 ^ 16 + s.pvFirst)
    | _ => s.fabPkg off

/-- A sensor entry as read (17 R382). -/
def Sensor.read (x : Sensor) : Word :=
  BitVec.ofNat 64 ((if x.alm then 2 ^ 36 else 0) + (if x.excl then 2 ^ 35 else 0) + x.status * 2 ^ 32 + (BitVec.ofInt 16 x.used).toNat * 2 ^ 16
    + (BitVec.ofInt 16 x.raw).toNat)

/-- A power register as read (17 R370). -/
def State.readPower (s : State) (off : Nat) : Word :=
  let p := s.power
  match off with
  | 0x00 =>
    BitVec.ofNat 64 ((if p.stepAt.isSome then 2 ^ 20 else 0) + p.depth * 2 ^ 14 + (if p.faben then 2 ^ 13 else 0) + (if p.pinen then 2 ^ 12 else 0)
      + p.fwreq * 2 ^ 9 + p.fabreq * 2 ^ 6 + p.pinreq * 2 ^ 3 + p.level)
  | 0x08 => zx (divisorWord p.map.toList)
  | 0x10 => BitVec.ofNat 64 p.pmeas
  | 0x18 => p.pnonce
  | 0x40 => BitVec.ofNat 64 (p.tjtrip * 2 ^ 8 + p.tjthr)
  | 0x48 => BitVec.ofNat 64 p.charge
  | 0x50 => BitVec.ofNat 64 p.archA
  | 0x58 => BitVec.ofNat 64 p.archB
  | 0x60 => BitVec.ofNat 64 p.archseq
  | _ => if 0x1000 ≤ off ∧ off < 0x1680 then (s.sensor ((off - 0x1000) / 128) ((off - 0x1000) / 8 % 16)).read else 0

/-- A service register as read (18 R390). -/
def State.readService (s : State) (off : Nat) : Word :=
  let v := s.service
  if off = 0x000 then BitVec.ofNat 64 v.bootst
  else if off = 0x008 then BitVec.ofNat 64 v.livedie
  else if 0x010 ≤ off ∧ off < 0x070 then BitVec.ofNat 64 (v.livecore.getD ((off - 0x010) / 8) 0)
  else if off = 0x080 then (if s.cur.swapAsked || (s.cur.takeover && s.cur.planned) then 2 else 0)
  else if 0x100 ≤ off ∧ off < 0x160 then
    let y := s.die ((off - 0x100) / 8)
    BitVec.ofNat 64 ((if y.repairBusy then 2 ^ 63 else 0) + (if y.repairFail then 2 ^ 62 else 0) + y.repairRow * 2 ^ 11)
  else if off = 0x400 then BitVec.ofNat 64 v.bypass
  else if off = 0x408 then
    BitVec.ofNat 64 (v.docSrc * 2 ^ 32 + v.docDie * 2 ^ 10 + v.docCore * 2 ^ 4 + (if v.docLoading then 2 else 0) + (if v.docRefused then 4 else 0))
  else if 0x200 ≤ off ∧ off < 0x880 then zx (BitVec.ofInt 16 (s.trim ((off - 0x200) / 128) ((off - 0x200) / 8 % 16))).toNat
  else 0

/-- An aligned 8-byte register of the Curator's physical space as Curator S reads it; the notify keys read 0 (14 R291). -/
def State.readWord (s : State) (pa : Nat) : Word :=
  if 0x4000000000 ≤ pa ∧ pa < 0x4000000000 + 12 * 0x400000 then
    let o := pa - 0x4000000000
    let x := o % 0x10000 / 0x2000
    if x ≤ 4 then s.readWindow ⟨o / 0x400000, o % 0x400000 / 0x10000, x⟩ (o % 0x2000 / 8) else 0
  else if 0x4100000000 ≤ pa ∧ pa < 0x4100010000 then BitVec.ofNat 64 ((s.descriptor ((pa - 0x4100000000) / 0x40)).getD (pa % 0x40 / 8) 0)
  else if 0x4100020000 ≤ pa ∧ pa < 0x4100020080 then
    BitVec.ofNat 64 (((s.errmap.filter (fun q => q / 64 == (pa - 0x4100020000) / 8)).map (fun q => 2 ^ (q % 64))).foldl (· + ·) 0)
  else if 0x4300000000 ≤ pa ∧ pa < 0x4300C00000 then s.readFabric ((pa - 0x4300000000) / 0x100000) (pa % 0x100000)
  else if pa = curatorCounts then BitVec.ofNat 64 (s.cur.late + s.power.counted * 2 ^ 32)
  else if 0x4301000000 ≤ pa ∧ pa < 0x4301100000 then s.readPackage (pa - 0x4301000000)
  else if powerReg ≤ pa ∧ pa < powerReg + 0x2000 then s.readPower (pa - powerReg)
  else if 0x4500000000 ≤ pa ∧ pa < 0x4500001000 then s.readService (pa - 0x4500000000)
  else 0

/-- What Curator S reads with an access of `size` bytes: memory, a control block by aligned 32-bit accesses only (03 R407), or a register by
aligned 8-byte ones; an access of any other size reads 0. -/
def State.readRegister (s : State) (pa size : Nat) : Nat :=
  if inMemory pa then s.rdNat pa size
  else if inBlocks pa then
    (if size = 4 ∧ pa % 4 = 0 then let b := blockOf pa; ((s.die b.1).icb b.2).read (pa % 0x40) else 0)
  else if size = 8 ∧ pa % 8 = 0 then (s.readWord pa).toNat
  else 0

end Sys2Proof.Machine
end

