-- ==== Sys2Proof/Machine/Due.lean ====
section
/-! DEFINITION. What comes to pass at a time of its own (log entry 4): the exact limits and deadlines of the manual, each as the event that
carries it out and the reference cycle in which it is due. An event is due just while its meaning acts, and stops being due by acting. -/

namespace Sys2Proof.Machine

/-- An event that comes to pass at a time of its own, by its row's name; `vaultFailure` is the die fault of a word whose failure an undoing has
found (03 R72), `rebuild` what Sloush does first after a package reset (16 R365). -/
inductive Timed where
  | watchdogExpiry (ag : AgentId)
  | rollingReset (core : CoreId) (kind : AgentKind)
  | churnDeadline (core : CoreId) (id : Nat)
  | coreResetTimeout (core : CoreId)
  | engineCommandStart (ag : AgentId)
  | dieResetTimeout (die : Nat)
  | thermalDepthRaise (die : Nat)
  | thermalDepthFall (die : Nat)
  | sensorSample (die : Nat) (raws : List (BitVec 16))
  | fabricReply (station tag gen : Nat) (ok : Bool) (data : List Byte)
  | requestTimeout (station tag : Nat)
  | slotAgeDiscard (station tag : Nat)
  | combiningWindowClose (id : Nat)
  | stepLimitExpiry
  | ladderRaise
  | ladderRelease
  | supervisorWatchdogExpiry
  | packageReset
  | pfail (cause : Nat)
  | vaultFailure (key : Nat)
  | rebuild
deriving DecidableEq, Repr

/-- The meaning of its row. -/
def Timed.run (e : Timed) (s : State) : Res :=
  match e with
  | .watchdogExpiry ag => execWatchdogExpiry ag s
  | .rollingReset c k => execRollingReset c k s
  | .churnDeadline c id => execChurnDeadline c id s
  | .coreResetTimeout c => execCoreResetTimeout c s
  | .engineCommandStart ag => execEngineCommandStart ag s
  | .dieResetTimeout d => execDieResetTimeout d s
  | .thermalDepthRaise d => execThermalDepthRaise d s
  | .thermalDepthFall d => execThermalDepthFall d s
  | .sensorSample d raws => execSensorSample d raws s
  | .fabricReply st tag gen ok data => execFabricReply st tag gen ok data s
  | .requestTimeout st tag => execRequestTimeout st tag s
  | .slotAgeDiscard st tag => execSlotAgeDiscard st tag s
  | .combiningWindowClose id => execCombiningWindowClose id s
  | .stepLimitExpiry => execStepLimitExpiry s
  | .ladderRaise => execLadderRaise s
  | .ladderRelease => execLadderRelease s
  | .supervisorWatchdogExpiry => execSupervisorWatchdogExpiry s
  | .packageReset => execPackageReset s
  | .pfail cause => execPfail cause s
  | .vaultFailure key => .next (s.vaultFound key)
  | .rebuild => .next s.rebuildFromJournal

/-- An event and the reference cycle in which it is due. -/
abbrev Due := Nat × Timed

/-- Lists an event as due at a time while a condition holds. -/
def dueIf (b : Bool) (t : Nat) (i : Timed) : List Due := if b then [(t, i)] else []

/-! ### Cores -/

/-- The reference cycle by which an engine has had `n` cycles: of a VE's slots the fastest counts. -/
def State.engineTime (s : State) (c : CoreId) (k : AgentKind) (n : Nat) : Nat :=
  let b := (s.core c).unitBase.getD k.num (0, 0)
  let ts := (s.liveSlots c k).map (fun d => b.2 + (n - b.1) * (s.core c).divisorOf k d.ctx)
  ts.foldl min (ts.headD s.cycle)

/-- The watchdog of an engine (16 R347), unless an alarm of it is already due for its reset. -/
def State.engineDue (s : State) (c : CoreId) (k : AgentKind) : List Due :=
  let x := s.core c
  let left := x.wdt.getD k.num 0 - x.wd.getD (k.num - 1) 0
  let now := s.engineCycles c k s.cycle
  let at_ := if left = 0 then s.cycle else s.engineTime c k (now + left)
  dueIf ((left == 0 || s.watched c k) && !x.pendReset.any (fun p => p.1 == k.num)) at_ (.watchdogExpiry ⟨c.die, c.core, 0, k⟩)

/-- The watchdog of a task context of the SCU. -/
def State.contextDue (s : State) (c : CtxId) : List Due :=
  let k := s.core c.coreId
  let x := s.ctx c
  let live := match s.task c with | some t => !t.frozen || t.inHandler | none => false
  dueIf (x.blocked && live) (k.unitTime 0 (k.unitCycles 0 s.cycle + (k.wdt.getD 0 0 - x.wd))) (.watchdogExpiry (c.agent .scu))

/-- The rolling reset of an engine (16 R351): at the end of its period, and once every slot stands at a mark. -/
def State.rollDue (s : State) (c : CoreId) (k : AgentKind) : List Due :=
  let x := s.core c
  let i := k.num - 1
  let ready := x.rolling.getD i false && s.allAtMark c k && !s.resetWaits c k
  dueIf true (if ready then s.cycle else x.rollAt.getD i 0 + s.rollPeriod c k) (.rollingReset c k)

/-- The stacks of a core at their deadlines (09 R227). -/
def State.churnDue (s : State) (c : CoreId) : List Due :=
  let k := s.core c
  (k.passes.filter Pass.open_).map (fun p => (k.unitTime 2 p.deadline, .churnDeadline c p.stack))

/-- What is due of a core: a command that follows a retired one at once (14 R322), watchdogs, rolling resets, deadlines, and the limit of its
reset (16 R345). -/
def State.coreDue (s : State) (c : CoreId) : List Due :=
  let reset : List Due := match (s.core c).crst with
    | some t => dueIf (s.die c.die).resetAt.isNone (t + micros 1000) (.coreResetTimeout c)
    | none => []
  if !s.coreRuns c then reset
  else
    let starts (k : AgentKind) : List Due :=
      (CoreId.slots c).flatMap (fun d => dueIf (s.startsCommand (d.agent k)) s.cycle (.engineCommandStart (d.agent k)))
    reset ++ s.churnDue c ++ (CoreId.slots c).flatMap s.contextDue
      ++ engineKinds.flatMap (fun k => starts k ++ s.engineDue c k ++ s.rollDue c k)

/-! ### Dies -/

/-- What is due of a die: the limit of its reset (16 R345), and the thermal rise and fall of its depth (17 R384). -/
def State.dieDue (s : State) (d : Nat) : List Due :=
  let y := s.die d
  let t := s.dieTemp d
  (match y.resetAt with
    | some r => dueIf (!(s.cur.takeover && s.cur.pkgReset)) (r + micros 10000) (.dieResetTimeout d)
    | none => [])
    ++ dueIf (degrees s.power.tjthr ≤ t) (y.overTemp + micros 1000) (.thermalDepthRaise d)
    ++ dueIf (decide (t < degrees s.power.tjthr - degrees 5) && decide (s.power.depth < y.depth)) (y.overTemp + micros 10000) (.thermalDepthFall d)

/-- The next sample of a die's sensors, whose readings are free values (17 R381). -/
def State.sampleOf (s : State) (d : Nat) : Due :=
  (s.sampleDue d, .sensorSample d ((List.range 16).map (fun i => (Config.freeWord (s.freeCtr + 16 * d + i)).setWidth 16)))

/-! ### The fabric -/

/-- What is due of a request: its denial at once, its timeout, and the discarding of a slot that is never taken (15 R333, R340). -/
def State.requestDue (s : State) (r : Req) : List Due :=
  dueIf r.denied r.at_ (.fabricReply r.station r.tag r.gen false []) ++ [(s.deadline r, .requestTimeout r.station r.tag)]
    ++ dueIf r.retryAt.isSome (r.at_ + 2 * s.stationTout r.station + 1) (.slotAgeDiscard r.station r.tag)

/-- The closing of a combining window (15 R341), once a tag is free. -/
def State.combineDue (s : State) (w : Combining) : List Due :=
  dueIf (w.sent.isNone && (s.freeTag 15).isSome) (if 16 ≤ w.reqs.length then w.openAt else w.openAt + 64) (.combiningWindowClose w.id)

/-! ### The package -/

/-- What is due of the power ladder (17 R374-R375). -/
def State.ladderDue (s : State) : List Due :=
  let p := s.power
  (match p.stepAt with | some t => [(t + micros 1000, Timed.stepLimitExpiry)] | none => [])
    ++ (match p.downAt, p.overSince with
        | some d, some o => dueIf (p.depth < 7) (max (d + micros 500) (max (o + micros 100) (p.lastRaise + micros 50))) .ladderRaise
        | _, _ => [])
    ++ (match p.underSince with
        | some u =>
          dueIf (!s.assistedPower && s.cores.all (fun e => e.2.pendingStep.isEmpty) && decide (0 < p.depth))
            (max (u + micros 100) (p.lastFall + micros 100)) .ladderRelease
        | none => [])

/-- What is due of a running package: the supervisor watchdog (13 R276), a package reset that has waited (16 R369), the ladder, its dies, its
cores and its requests. -/
def State.runningDue (s : State) : List Due :=
  dueIf s.cur.rebuild s.cycle .rebuild ++ dueIf s.watchdogRuns (s.cur.refreshed + micros 2000) .supervisorWatchdogExpiry
    ++ dueIf (s.cur.pkgReset && !s.cur.takeover) s.cycle .packageReset
    ++ s.vaultHit.map (fun k => (s.cycle, Timed.vaultFailure k)) ++ s.ladderDue ++ (List.range 12).flatMap s.dieDue ++ (List.range 13).map s.sampleOf
    ++ s.activeCores.flatMap s.coreDue ++ s.reqs.flatMap s.requestDue ++ s.combining.flatMap s.combineDue

/-- Everything due: the power-fail sequence of a module whose charge has fallen too low (17 R386), and of a running one the rest. -/
def State.dues (s : State) : List Due :=
  dueIf (decide (s.mode ≠ .off) && decide (s.power.charge < chargeFloor)) s.cycle (.pfail 2) ++ (if s.mode = .running then s.runningDue else [])

/-- The earlier of two due events, the first of two at one time. -/
def Due.first (x y : Due) : Due := if y.1 < x.1 then y else x

/-- The event due first, if any is. -/
def State.firstDue (s : State) : Option Due :=
  match s.dues with
  | [] => none
  | x :: l => some (l.foldl Due.first x)

/-- The next point after now at which the power is measured, every 10 µs (17 R370). -/
def State.nextSample (s : State) : Nat := (s.cycle / micros 10 + 1) * micros 10

/-- What comes to pass before a reference cycle: the event due first, if no measurement is made before it, or that measurement alone. -/
def State.cut (s : State) (t : Nat) : Option (Nat × Option Timed) :=
  let sample : Option (Nat × Option Timed) := if s.nextSample < t then some (s.nextSample, none) else none
  match s.firstDue with
  | some e =>
    let at_ := max e.1 s.cycle
    if at_ < t ∧ at_ ≤ s.nextSample then some (at_, some e.2) else sample
  | none => sample

end Sys2Proof.Machine
end

