-- ==== Sys2Proof/Machine/ScuAlu.lean ====
section
/-! DEFINITION. The SCU's integer operations, immediates, multiply and divide, compares, condition logic and transfers
(06 R134-R145), with their 16-bit forms (05 R113). -/

namespace Sys2Proof.Machine

/-! ### The operations (06 R134-R138) -/

/-- The shift amount of a register: its low six bits. -/
def shamt (b : Word) : Nat := b.toNat % 64
/-- ROT: rotate right. -/
def rotWord (a : Word) (n : Nat) : Word := (a >>> n) ||| (a <<< (64 - n))
/-- Signed lesser and greater, natural lesser and greater. -/
def minS (a b : Word) : Word := if b.slt a then b else a
def maxS (a b : Word) : Word := if a.slt b then b else a
def minU (a b : Word) : Word := if b.ult a then b else a
def maxU (a b : Word) : Word := if a.ult b then b else a
/-- Leading zero bits of the low `n` bits. -/
def clzFrom (a : Word) : Nat → Nat
  | 0 => 0
  | n + 1 => if wbit a n then 0 else 1 + clzFrom a n
/-- Trailing zero bits, looking at `n` bits from bit `i`. -/
def ctzFrom (a : Word) (i : Nat) : Nat → Nat
  | 0 => 0
  | n + 1 => if wbit a i then 0 else 1 + ctzFrom a (i + 1) n
/-- One bits among the low `n` bits. -/
def popFrom (a : Word) : Nat → Nat
  | 0 => 0
  | n + 1 => (if wbit a n then 1 else 0) + popFrom a n
/-- MULH and MULHN. -/
def mulhS (a b : Word) : Word := wordOfInt (a.toInt * b.toInt / 2 ^ 64)
def mulhU (a b : Word) : Word := zx (a.toNat * b.toNat / 2 ^ 64)
/-- DIV, DIVN, REM and REMN with the edge cases of 06 R138. -/
def divS (a b : Word) : Word := if b = 0 then BitVec.allOnes 64 else wordOfInt (a.toInt.tdiv b.toInt)
def divU (a b : Word) : Word := if b = 0 then BitVec.allOnes 64 else zx (a.toNat / b.toNat)
def remS (a b : Word) : Word := if b = 0 then a else wordOfInt (a.toInt.tmod b.toInt)
def remU (a b : Word) : Word := if b = 0 then a else zx (a.toNat % b.toNat)

/-- A three-register operation. -/
def State.alu (s : State) (gd : Guard) (d a b : Nat) (f : Word → Word → Word) : Res :=
  s.scuWrite gd [d, a, b] 2 d (fun x => f (x.reg a) (x.reg b))

def execAdd (gd : Guard) (d a b : Nat) (s : State) : Res := s.alu gd d a b (· + ·)
def execSub (gd : Guard) (d a b : Nat) (s : State) : Res := s.alu gd d a b (· - ·)
def execAnd (gd : Guard) (d a b : Nat) (s : State) : Res := s.alu gd d a b (· &&& ·)
def execOr (gd : Guard) (d a b : Nat) (s : State) : Res := s.alu gd d a b (· ||| ·)
def execXor (gd : Guard) (d a b : Nat) (s : State) : Res := s.alu gd d a b (· ^^^ ·)
def execAndn (gd : Guard) (d a b : Nat) (s : State) : Res := s.alu gd d a b (fun x y => x &&& ~~~y)
def execShl (gd : Guard) (d a b : Nat) (s : State) : Res := s.alu gd d a b (fun x y => x <<< shamt y)
def execShr (gd : Guard) (d a b : Nat) (s : State) : Res := s.alu gd d a b (fun x y => x >>> shamt y)
def execSha (gd : Guard) (d a b : Nat) (s : State) : Res := s.alu gd d a b (fun x y => x.sshiftRight (shamt y))
def execRot (gd : Guard) (d a b : Nat) (s : State) : Res := s.alu gd d a b (fun x y => rotWord x (shamt y))
def execMin (gd : Guard) (d a b : Nat) (s : State) : Res := s.alu gd d a b minS
def execMax (gd : Guard) (d a b : Nat) (s : State) : Res := s.alu gd d a b maxS
def execMinn (gd : Guard) (d a b : Nat) (s : State) : Res := s.alu gd d a b minU
def execMaxn (gd : Guard) (d a b : Nat) (s : State) : Res := s.alu gd d a b maxU
def execClz (gd : Guard) (d a : Nat) (s : State) : Res := s.scuWrite gd [d, a] 2 d (fun x => zx (clzFrom (x.reg a) 64))
def execCtz (gd : Guard) (d a : Nat) (s : State) : Res := s.scuWrite gd [d, a] 2 d (fun x => zx (ctzFrom (x.reg a) 0 64))
def execPopc (gd : Guard) (d a : Nat) (s : State) : Res := s.scuWrite gd [d, a] 2 d (fun x => zx (popFrom (x.reg a) 64))
def execMul (gd : Guard) (d a b : Nat) (s : State) : Res := s.alu gd d a b (· * ·)
def execMulh (gd : Guard) (d a b : Nat) (s : State) : Res := s.alu gd d a b mulhS
def execMulhn (gd : Guard) (d a b : Nat) (s : State) : Res := s.alu gd d a b mulhU
def execDiv (gd : Guard) (d a b : Nat) (s : State) : Res := s.alu gd d a b divS
def execDivn (gd : Guard) (d a b : Nat) (s : State) : Res := s.alu gd d a b divU
def execRem (gd : Guard) (d a b : Nat) (s : State) : Res := s.alu gd d a b remS
def execRemn (gd : Guard) (d a b : Nat) (s : State) : Res := s.alu gd d a b remU

/-- A register and immediate operation. -/
def State.aluImm (s : State) (gd : Guard) (d a : Nat) (f : Word → Word) : Res :=
  s.scuWrite gd [d, a] 2 d (fun x => f (x.reg a))

def execAddi (gd : Guard) (d a i : Nat) (s : State) : Res := s.aluImm gd d a (fun x => x + sx 10 i)
def execAndi (gd : Guard) (d a i : Nat) (s : State) : Res := s.aluImm gd d a (fun x => x &&& sx 10 i)
def execOri (gd : Guard) (d a i : Nat) (s : State) : Res := s.aluImm gd d a (fun x => x ||| sx 10 i)
def execXori (gd : Guard) (d a i : Nat) (s : State) : Res := s.aluImm gd d a (fun x => x ^^^ sx 10 i)
def execShli (gd : Guard) (d a n : Nat) (s : State) : Res := s.aluImm gd d a (fun x => x <<< n)
def execShri (gd : Guard) (d a n : Nat) (s : State) : Res := s.aluImm gd d a (fun x => x >>> n)
def execShai (gd : Guard) (d a n : Nat) (s : State) : Res := s.aluImm gd d a (fun x => x.sshiftRight n)
def execRoti (gd : Guard) (d a n : Nat) (s : State) : Res := s.aluImm gd d a (fun x => rotWord x n)
def execLi (gd : Guard) (d i : Nat) (s : State) : Res := s.scuWrite gd [d] 2 d (fun _ => sx 15 i)
def execLis (gd : Guard) (d i : Nat) (s : State) : Res := s.scuWrite gd [d] 2 d (fun x => (x.reg d <<< 15) ||| zx i)

/-! ### Compares and condition logic (06 R139-R141) -/

/-- A compare of g[a] with a second value into a pair. -/
def State.compare (s : State) (gd : Guard) (touch : List Nat) (kp : Nat) (f : Ctx → Bool) : Res :=
  s.scu gd touch 2 (fun s => .done (s.modCtx s.here (fun x => x.setPair kp (f x))))

def execCmp (gd : Guard) (k a b c : Nat) (s : State) : Res := s.compare gd [a, b] k (fun x => condSigned c (x.reg a) (x.reg b))
def execCmpn (gd : Guard) (k a b c : Nat) (s : State) : Res := s.compare gd [a, b] k (fun x => condNatural c (x.reg a) (x.reg b))
def execCmpi (gd : Guard) (k a i c : Nat) (s : State) : Res := s.compare gd [a] k (fun x => condSigned c (x.reg a) (sx 10 i))
def execCmpin (gd : Guard) (k a i c : Nat) (s : State) : Res := s.compare gd [a] k (fun x => condNatural c (x.reg a) (zx i))

/-- KOP: one condition bit from two (06 R140). -/
def State.kop (s : State) (gd : Guard) (d a b : Nat) (f : Bool → Bool → Bool) : Res :=
  s.scu gd [] 2 (fun s => .done (s.modCtx s.here (fun x => x.setCond d (f (x.cond a) (x.cond b)))))

def execKand (gd : Guard) (d a b : Nat) (s : State) : Res := s.kop gd d a b (fun x y => x && y)
def execKor (gd : Guard) (d a b : Nat) (s : State) : Res := s.kop gd d a b (fun x y => x || y)
def execKxor (gd : Guard) (d a b : Nat) (s : State) : Res := s.kop gd d a b (fun x y => x != y)
def execKandn (gd : Guard) (d a b : Nat) (s : State) : Res := s.kop gd d a b (fun x y => x && !y)

/-- KPOP: the oldest vote into a condition bit; an empty queue blocks (06 R141). -/
def State.popVote (s : State) (gd : Guard) (size d : Nat) : Res :=
  s.scu gd [] size (fun s =>
    match (s.ctx s.here).votes with
    | [] => .block s
    | v :: rest => .done (s.modCtx s.here (fun x => { x with votes := rest }.setCond d v)))

def execKpop (gd : Guard) (d : Nat) (s : State) : Res := s.popVote gd 2 d

/-! ### Transfers (06 R142-R145) -/

def execPbt (gd : Guard) (t g : Nat) (s : State) : Res :=
  s.scu gd [] 2 (fun s => .done (s.modCtx s.here (fun x => x.setTarget t g)))
def execPbtr (gd : Guard) (t a : Nat) (s : State) : Res :=
  s.scu gd [a] 2 (fun s => .done (s.modCtx s.here (fun x => x.setTarget t (x.reg a).toNat)))

/-- The index just after the second delay slot of a transfer of `size` halfwords that stands at `pc`: the delay slots' sizes are read
from their first halfwords (05 R99, 06 R143). -/
def State.afterSlots (s : State) (c : CtxId) (pc size : Nat) : Nat :=
  let half (i : Nat) : Nat :=
    if 16384 ≤ i then 0
    else if c.ctx = 4 then (if 4096 ≤ i then 0 else s.rdNat (docentAt c.coreId (2 * i)) 2) else s.rdNat (ispaceAt c.coreId (2 * i)) 2
  let len (i : Nat) : Nat := if half i % 2 = 1 then 2 else 1
  let p1 := pc + size
  let p2 := p1 + len p1
  p2 + len p2

/-- XFER and XFERL (06 R143): illegal in a delay slot whatever the guard (R144); the guard says whether the transfer is taken, and the
two delay slots run either way. -/
def State.transfer (s : State) (gd : Guard) (size t w : Nat) (link : Option Nat) : Res :=
  if s.inSlot then s.illegal w
  else
    let c := s.here
    let taken := (s.ctx c).guardOn gd
    let pend (s : State) : State := s.modCtx c (fun x => { x with pc := x.pc + size, xfer := some ⟨x.target t, taken, 2⟩ })
    match link with
    | none => .next (if taken then (pend s).charge c.coreId 0 1 else pend s)
    | some d =>
      s.scu gd [d] size (fun s =>
        .placed (pend (s.modCtx c (fun x => x.setReg d (zx (s.afterSlots c x.pc size % 16384))))))
      |> fun r => if taken then r else .next (pend s)

def execXfer (gd : Guard) (t : Nat) (s : State) : Res := s.transfer gd 2 t (encodeWord (.xfer gd t)) none
def execXferl (gd : Guard) (t d : Nat) (s : State) : Res := s.transfer gd 2 t (encodeWord (.xferl gd t d)) (some d)

/-! ### The 16-bit forms (05 R113) -/

/-- A 16-bit register operation in place. -/
def State.alu16 (s : State) (d a : Nat) (f : Word → Word → Word) : Res :=
  s.scuWrite .always [d, a] 1 d (fun x => f (x.reg d) (x.reg a))

def execMov16 (d a : Nat) (s : State) : Res := s.scuWrite .always [d, a] 1 d (fun x => x.reg a)
def execAdd16 (d a : Nat) (s : State) : Res := s.alu16 d a (· + ·)
def execSub16 (d a : Nat) (s : State) : Res := s.alu16 d a (· - ·)
def execAnd16 (d a : Nat) (s : State) : Res := s.alu16 d a (· &&& ·)
def execOr16 (d a : Nat) (s : State) : Res := s.alu16 d a (· ||| ·)
def execXor16 (d a : Nat) (s : State) : Res := s.alu16 d a (· ^^^ ·)
def execAddi16 (d i : Nat) (s : State) : Res := s.scuWrite .always [d] 1 d (fun x => x.reg d + sx 5 i)
def execLi16 (d i : Nat) (s : State) : Res := s.scuWrite .always [d] 1 d (fun _ => sx 5 i)
def execShli16 (d n : Nat) (s : State) : Res := s.scuWrite .always [d] 1 d (fun x => x.reg d <<< n)
def execShri16 (d n : Nat) (s : State) : Res := s.scuWrite .always [d] 1 d (fun x => x.reg d >>> n)
def execXfer16 (t : Nat) (s : State) : Res := s.transfer .always 1 t (encodeWord (.xfer16 t)) none
def execKpop16 (d : Nat) (s : State) : Res := s.popVote .always 1 d
def execNop16 (s : State) : Res := s.scu .always [] 1 .done

end Sys2Proof.Machine
end

