-- ==== Sys2Proof/Machine/Hart.lean ====
section
/-! DEFINITION. The harts of the Curator (13 R269, R274): each pair as one hart of RV64IMAFDC with Zicsr and Zifencei in modes M, S and U. The manual names that
published set and gives none of its instructions, so all of this file is PRESUMED from the published standard, but for what a hart reaches, which 13 R269 gives (log
entry 96). -/

namespace Sys2Proof.Machine

/-! ### Registers -/

/-- An integer register; x0 reads 0. -/
def Hart.get (h : Hart) (r : Nat) : Word := if r = 0 then 0 else h.x.getD r 0
/-- Writes an integer register; x0 keeps 0. -/
def Hart.set (h : Hart) (r : Nat) (v : Word) : Hart := if r = 0 then h else { h with x := setNth h.x r v }
/-- A floating-point register. -/
def Hart.fget (h : Hart) (r : Nat) : Word := h.f.getD r 0
/-- A control and status register as it is held. -/
def Hart.raw (h : Hart) (n : Nat) : Word := Table.get 0 h.csr n
/-- Holds a value in a control and status register. -/
def Hart.hold (h : Hart) (n : Nat) (v : Word) : Hart := { h with csr := Table.put h.csr n v }
/-- A bit of mstatus. -/
def Hart.status (h : Hart) (b : Nat) : Bool := wbit (h.raw 0x300) b
/-- A word with a field of it replaced. -/
def withFld (v : Word) (lo width x : Nat) : Word := BitVec.ofNat 64 (v.toNat - fld v.toNat lo width * 2 ^ lo + x % 2 ^ width * 2 ^ lo)
/-- Sets a field of mstatus. -/
def Hart.setStatus (h : Hart) (lo width x : Nat) : Hart := h.hold 0x300 (withFld (h.raw 0x300) lo width x)
/-- Writes a floating-point register, after which the floating-point state is dirty. -/
def Hart.fset (h : Hart) (r : Nat) (v : Word) : Hart := ({ h with f := setNth h.f r v } : Hart).setStatus 13 2 3
/-- Raises floating-point flags. -/
def Hart.flags (h : Hart) (n : Nat) : Hart :=
  if n = 0 then h else (h.hold 0x003 (h.raw 0x003 ||| BitVec.ofNat 64 n)).setStatus 13 2 3

/-- A privilege level's number. -/
def HartLevel.num : HartLevel → Nat
  | .u => 0
  | .s => 1
  | .m => 3

/-- The level of a number. -/
def HartLevel.ofNum (n : Nat) : HartLevel := if n = 0 then .u else if n = 1 then .s else .m

/-- What one instruction of a hart comes to: it is done, it traps, or it waits and is taken again. -/
inductive HartOut where
  | done (h : Hart) (s : State)
  | trap (cause : Nat) (tval : Word)
  | wait

/-! ### Interrupts that a pair sees -/

/-- The interrupts that the machine itself holds up at a pair: the supervisor's while the trap queue, an ERRMAP bit or a die's fault ring has something for it
(13 R283, 14 R293, 15 R328), pair C's while a sensor's ALM stands (17 R382), the monitor's while its queue does. -/
def State.lines (s : State) (i : Nat) : Nat :=
  let act := s.cur.pair i == .active
  let sup := (act && (s.cur.tqrd != s.cur.tqwr || !s.errmap.isEmpty || (List.range 12).any (fun d => (s.die d).parked.any (fun p => p.index.isSome))))
    || (i == 2 && (List.range 13).any (fun d => (List.range 16).any (fun x => (s.sensor d x).alm)))
  (if sup then 2 ^ 9 else 0) + (if act && s.cur.mqrd != s.cur.mqwr then 2 ^ 11 else 0)

/-- The pending interrupts of a hart. -/
def Hart.mip (h : Hart) (lines : Nat) : Word := h.raw 0x344 ||| BitVec.ofNat 64 lines

/-- The interrupt a hart takes before its next instruction, in the order of their priority. -/
def Hart.taken (h : Hart) (lines : Nat) : Option Nat :=
  let up := h.mip lines &&& h.raw 0x304
  let deleg := h.raw 0x303
  let m := h.level != .m || h.status 3
  let sv := h.level == .u || (h.level == .s && h.status 1)
  let order := [11, 3, 7, 9, 1, 5]
  match order.find? (fun n => wbit up n && !wbit deleg n && m) with
  | some n => some n
  | none => order.find? (fun n => wbit up n && wbit deleg n && sv)

/-- Where a trap goes. -/
def trapVector (tvec : Word) (cause : Nat) (isInt : Bool) : Word :=
  let base := tvec &&& ~~~3
  if isInt && wbit tvec 0 then base + BitVec.ofNat 64 (4 * cause) else base

/-- A hart takes a trap, at S where it is delegated. -/
def Hart.trap (h : Hart) (cause : Nat) (tval : Word) (isInt : Bool) : Hart :=
  let code : Word := BitVec.ofNat 64 (cause + (if isInt then 2 ^ 63 else 0))
  let atS := h.level != .m && wbit (h.raw (if isInt then 0x303 else 0x302)) cause
  if atS then
    let h' := (((h.hold 0x141 h.pc).hold 0x142 code).hold 0x143 tval)
    let h' := ((h'.setStatus 5 1 (if h.status 1 then 1 else 0)).setStatus 1 1 0).setStatus 8 1 h.level.num
    { h' with level := .s, pc := trapVector (h.raw 0x105) cause isInt }
  else
    let h' := (((h.hold 0x341 h.pc).hold 0x342 code).hold 0x343 tval)
    let h' := ((h'.setStatus 7 1 (if h.status 3 then 1 else 0)).setStatus 3 1 0).setStatus 11 2 h.level.num
    { h' with level := .m, pc := trapVector (h.raw 0x305) cause isInt }

/-! ### Physical memory protection (13 R269) -/

/-- How many low bits of a number are ones, up to a bound. -/
def lowOnes : Nat → Nat → Nat
  | 0, _ => 0
  | k + 1, n => if n % 2 = 1 then lowOnes k (n / 2) + 1 else 0

/-- An entry's configuration byte. -/
def Hart.pmpCfg (h : Hart) (i : Nat) : Nat := wfld (h.raw (0x3A0 + i / 8 * 2)) (i % 8 * 8) 8
/-- An entry's address, in units of 4 bytes. -/
def Hart.pmpAddr (h : Hart) (i : Nat) : Nat := (h.raw (0x3B0 + i)).toNat

/-- The bytes an entry covers, from the first to the one after the last. -/
def Hart.pmpRange (h : Hart) (i : Nat) : Nat × Nat :=
  let a := h.pmpAddr i
  match h.pmpCfg i / 8 % 4 with
  | 0 => (0, 0)
  | 1 => (if i = 0 then 0 else 4 * h.pmpAddr (i - 1), 4 * a)
  | 2 => (4 * a, 4 * a + 4)
  | _ => let t := lowOnes 54 a; (4 * (a / 2 ^ (t + 1) * 2 ^ (t + 1)), 4 * (a / 2 ^ (t + 1) * 2 ^ (t + 1)) + 2 ^ (t + 3))

/-- Whether the protection lets a level access bytes: the first entry that covers one of them decides, and must cover all; the machine level is bound by locked
entries only. `right` is 0 to read, 1 to write and 2 to execute. -/
def Hart.pmpOk (h : Hart) (level : HartLevel) (pa n right : Nat) : Bool :=
  match (List.range 16).find? (fun i => let r := h.pmpRange i; decide (max r.1 pa < min r.2 (pa + n))) with
  | none => level == .m
  | some i =>
    let r := h.pmpRange i
    decide (r.1 ≤ pa) && decide (pa + n ≤ r.2) && ((level == .m && !(h.pmpCfg i).testBit 7) || (h.pmpCfg i).testBit right)

/-! ### Loads, stores and fetches -/

/-- The level of a load's or store's rights: that of MPP under MPRV. -/
def Hart.dataLevel (h : Hart) : HartLevel :=
  if h.level == .m && h.status 17 then HartLevel.ofNum (wfld (h.raw 0x300) 11 2) else h.level

/-- Whether an address is a register of the monitor's. -/
def monitorOnly (pa : Nat) : Bool := decide (0x4301000000 ≤ pa) && decide (pa < 0x4301100000) && monitorReg (pa - 0x4301000000)

/-- Whether an address lies in some block of registers of the Curator's physical space. -/
def inRegisters (pa : Nat) : Bool :=
  (decide (0x4000000000 ≤ pa) && decide (pa < 0x4000000000 + 12 * 0x400000)) || (decide (0x4100000000 ≤ pa) && decide (pa < 0x4100018000))
    || (decide (0x4100020000 ≤ pa) && decide (pa < 0x4100020080)) || (decide (0x4300000000 ≤ pa) && decide (pa < 0x4301100000))
    || (decide (powerReg ≤ pa) && decide (pa < powerReg + 0x2000)) || (decide (0x4500000000 ≤ pa) && decide (pa < 0x4500001000)) || inBlocks pa

/-- Whether a pair at a level reaches an address (13 R269): all reach memory; no register is a user's; the supervisor's but the monitor's own are those of
the active pair, and of pair C the power registers (17 R370); the machine level reaches every one, but those that only an active supervisor writes (16 R369). -/
def State.hartReaches (s : State) (i : Nat) (level : HartLevel) (pa : Nat) : Bool :=
  let active := s.cur.pair i == .active && !s.cur.takeover && decide (s.mode = .running)
  inMemory pa
    || (inRegisters pa
      && match level with
         | .u => false
         | .s => !monitorOnly pa && (active || (inPower pa && i == 2 && decide (s.mode = .running)))
         | .m => active || !activeOnly pa)

/-- Whether a hart's data access is let through. -/
def State.hartMay (s : State) (i : Nat) (h : Hart) (pa n right : Nat) : Bool :=
  s.hartReaches i h.dataLevel pa && h.pmpOk h.dataLevel pa n right

/-- A load of a hart, with what it goes on to do with the value. -/
def State.hartLoad (s : State) (i : Nat) (h : Hart) (va : Word) (n : Nat) (k : Nat → HartOut) : HartOut :=
  let pa := va.toNat
  if pa % n ≠ 0 then .trap 4 va
  else if !s.hartMay i h pa n 0 then .trap 5 va
  else if inMemory pa && s.vatBusy pa n then .wait
  else k (s.readRegister pa n)

/-- A store of a hart. -/
def State.hartStore (s : State) (i : Nat) (h : Hart) (va : Word) (n v : Nat) (k : State → HartOut) : HartOut :=
  let pa := va.toNat
  if pa % n ≠ 0 then .trap 6 va
  else if !s.hartMay i h pa n 1 then .trap 7 va
  else if inMemory pa && s.vatBusy pa n then .wait
  else k (s.supWrite pa n v)

/-! ### Control and status registers (Zicsr) -/

/-- The pmpcfg registers. -/
def isPmpCfg (n : Nat) : Bool := n == 0x3A0 || n == 0x3A2
/-- The pmpaddr registers. -/
def isPmpAddr (n : Nat) : Bool := decide (0x3B0 ≤ n) && decide (n < 0x3C0)
/-- The performance counters and selectors that read 0. -/
def isZeroCsr (n : Nat) : Bool :=
  (decide (0xB03 ≤ n) && decide (n < 0xB20)) || (decide (0xC03 ≤ n) && decide (n < 0xC20)) || (decide (0x323 ≤ n) && decide (n < 0x340))
    || n == 0x320 || n == 0xF11 || n == 0xF12 || n == 0xF13 || n == 0xF15 || n == 0x10A || n == 0x30A || n == 0x180

/-- The registers that are held as they are written. -/
def isPlainCsr (n : Nat) : Bool := [0x140, 0x142, 0x143, 0x340, 0x342, 0x343].contains n

/-- The bits of mstatus, and those that sstatus shows. -/
def mstatusMask : Word := 0x7279AA
def sstatusMask : Word := 0x6122

/-- mstatus as read: SXL and UXL say 64 bits, and SD that the floating-point state is dirty. -/
def Hart.mstatus (h : Hart) : Word :=
  (h.raw 0x300 &&& mstatusMask) ||| 0xA00000000 ||| (if wfld (h.raw 0x300) 13 2 = 3 then 0x8000000000000000 else 0)

/-- A control and status register as read; none where there is none. -/
def Hart.read (h : Hart) (i lines cycle n : Nat) : Option Word :=
  match n with
  | 0x001 => some (h.raw 3 &&& 0x1F)
  | 0x002 => some (h.raw 3 >>> 5)
  | 0x003 => some (h.raw 3)
  | 0x100 => some (h.mstatus &&& (sstatusMask ||| 0x8000000200000000))
  | 0x104 => some (h.raw 0x304 &&& h.raw 0x303)
  | 0x144 => some (h.mip lines &&& h.raw 0x303)
  | 0x300 => some h.mstatus
  | 0x301 => some 0x800000000014112D
  | 0x344 => some (h.mip lines)
  | 0xF14 => some (BitVec.ofNat 64 i)
  | 0xB00 | 0xC00 => some (h.raw 0xB00 + BitVec.ofNat 64 cycle)
  | 0xC01 => some (BitVec.ofNat 64 cycle)
  | 0xB02 | 0xC02 => some (h.raw 0xB02)
  | _ =>
    if isZeroCsr n then some 0
    else if isPlainCsr n || isPmpCfg n || isPmpAddr n || [0x105, 0x106, 0x141, 0x302, 0x303, 0x304, 0x305, 0x306, 0x341].contains n then some (h.raw n)
    else none

/-- A pmpcfg register as written: locked entries stay, and write without read is no right. -/
def pmpWritten (old v : Word) : Word :=
  let byte (k : Nat) : Nat :=
    let o := wfld old (8 * k) 8
    let x := wfld v (8 * k) 8
    if o.testBit 7 then o else (x - x / 32 % 4 * 32) - (if x % 4 = 2 then 2 else 0)
  BitVec.ofNat 64 (((List.range 8).map (fun k => byte k * 2 ^ (8 * k))).foldl (· + ·) 0)

/-- Whether a pmpaddr register is locked: by its own entry, or by the next one as the bottom of its range. -/
def Hart.pmpLocked (h : Hart) (i : Nat) : Bool :=
  (h.pmpCfg i).testBit 7 || (decide (i < 15) && (h.pmpCfg (i + 1)).testBit 7 && h.pmpCfg (i + 1) / 8 % 4 == 1)

/-- The bits of `v` that a mask lets through, over `old`. -/
def merged (old v mask : Word) : Word := (old &&& ~~~mask) ||| (v &&& mask)

/-- Writes mstatus; a previous level that is none stays as it was. -/
def Hart.writeStatus (h : Hart) (v mask : Word) : Hart :=
  let v := if wfld v 11 2 = 2 then withFld v 11 2 (wfld (h.raw 0x300) 11 2) else v
  h.hold 0x300 (merged (h.raw 0x300) v (mask &&& mstatusMask))

/-- Writes a control and status register. -/
def Hart.write (h : Hart) (cycle n : Nat) (v : Word) : Hart :=
  match n with
  | 0x001 => (h.hold 3 (merged (h.raw 3) v 0x1F)).setStatus 13 2 3
  | 0x002 => (h.hold 3 (merged (h.raw 3) (v <<< 5) 0xE0)).setStatus 13 2 3
  | 0x003 => (h.hold 3 (v &&& 0xFF)).setStatus 13 2 3
  | 0x100 => h.writeStatus v sstatusMask
  | 0x300 => h.writeStatus v mstatusMask
  | 0x104 => h.hold 0x304 (merged (h.raw 0x304) v (h.raw 0x303))
  | 0x144 => h.hold 0x344 (merged (h.raw 0x344) v (h.raw 0x303 &&& 2))
  | 0x302 => h.hold n (v &&& 0xB3FF)
  | 0x303 => h.hold n (v &&& 0x222)
  | 0x304 => h.hold n (v &&& 0xAAA)
  | 0x344 => h.hold n (merged (h.raw n) v 0x222)
  | 0x105 | 0x305 => h.hold n (v &&& ~~~2)
  | 0x106 | 0x306 => h.hold n (v &&& 7)
  | 0x141 | 0x341 => h.hold n (v &&& ~~~1)
  | 0xB00 => h.hold n (v - BitVec.ofNat 64 cycle)
  | 0xB02 => h.hold n v
  | _ =>
    if isPlainCsr n then h.hold n v
    else if isPmpCfg n then h.hold n (pmpWritten (h.raw n) v)
    else if isPmpAddr n then (if h.pmpLocked (n - 0x3B0) then h else h.hold n (v &&& 0x3FFFFFFFFFFFFF))
    else h

/-- Whether a hart may access a control and status register: at its level, counters as they are enabled for lower levels, the floating-point ones with that state
on, and satp in S as TVM leaves it; the last quarter is read-only. -/
def Hart.mayCsr (h : Hart) (n : Nat) (wr : Bool) : Bool :=
  let counter := decide (0xC00 ≤ n) && decide (n < 0xC20)
  decide (n / 256 % 4 ≤ h.level.num) && !(wr && n / 1024 == 3)
    && (!counter || h.level == .m || (wbit (h.raw 0x306) (n % 32) && (h.level == .s || wbit (h.raw 0x106) (n % 32))))
    && !((n == 1 || n == 2 || n == 3) && wfld (h.raw 0x300) 13 2 == 0)
    && !(n == 0x180 && h.level == .s && h.status 20)

/-! ### Fields of an instruction -/

/-- The immediates of the six forms. -/
def immI (w : Nat) : Word := sx 12 (fld w 20 12)
def immS (w : Nat) : Word := sx 12 (fld w 25 7 * 32 + fld w 7 5)
def immB (w : Nat) : Word := sx 13 (fld w 31 1 * 4096 + fld w 7 1 * 2048 + fld w 25 6 * 32 + fld w 8 4 * 2)
def immU (w : Nat) : Word := sx 32 (fld w 12 20 * 4096)
def immJ (w : Nat) : Word := sx 21 (fld w 31 1 * 2 ^ 20 + fld w 12 8 * 4096 + fld w 20 1 * 2048 + fld w 21 10 * 2)

/-- A word of one of the forms, from its fields. -/
def formI (op f3 rd rs1 imm : Nat) : Nat := op + rd * 2 ^ 7 + f3 * 2 ^ 12 + rs1 * 2 ^ 15 + imm % 4096 * 2 ^ 20
def formR (op f3 f7 rd rs1 rs2 : Nat) : Nat := op + rd * 2 ^ 7 + f3 * 2 ^ 12 + rs1 * 2 ^ 15 + rs2 * 2 ^ 20 + f7 * 2 ^ 25
def formS (op f3 rs1 rs2 imm : Nat) : Nat := op + fld imm 0 5 * 2 ^ 7 + f3 * 2 ^ 12 + rs1 * 2 ^ 15 + rs2 * 2 ^ 20 + fld imm 5 7 * 2 ^ 25
def formB (f3 rs1 rs2 imm : Nat) : Nat :=
  0x63 + fld imm 11 1 * 2 ^ 7 + fld imm 1 4 * 2 ^ 8 + f3 * 2 ^ 12 + rs1 * 2 ^ 15 + rs2 * 2 ^ 20 + fld imm 5 6 * 2 ^ 25 + fld imm 12 1 * 2 ^ 31
def formU (op rd imm : Nat) : Nat := op + rd * 2 ^ 7 + imm % 2 ^ 20 * 2 ^ 12
def formJ (rd imm : Nat) : Nat :=
  0x6F + rd * 2 ^ 7 + fld imm 12 8 * 2 ^ 12 + fld imm 11 1 * 2 ^ 20 + fld imm 1 10 * 2 ^ 21 + fld imm 20 1 * 2 ^ 31

/-- A two's-complement field of `n` bits as one of `m`. -/
def widen (n m x : Nat) : Nat := (BitVec.ofInt m (signed n x)).toNat

/-- The word of 32 bits that a compressed instruction of quadrant 0 stands for. -/
def expand0 (c : Nat) : Option Nat :=
  let rd := 8 + fld c 2 3
  let rs := 8 + fld c 7 3
  let w4 := fld c 10 3 * 8 + fld c 6 1 * 4 + fld c 5 1 * 64
  let w8 := fld c 10 3 * 8 + fld c 5 2 * 64
  match fld c 13 3 with
  | 0 =>
    let i := fld c 11 2 * 16 + fld c 7 4 * 64 + fld c 6 1 * 4 + fld c 5 1 * 8
    if i = 0 then none else some (formI 0x13 0 rd 2 i)
  | 1 => some (formI 0x07 3 rd rs w8)
  | 2 => some (formI 0x03 2 rd rs w4)
  | 3 => some (formI 0x03 3 rd rs w8)
  | 5 => some (formS 0x27 3 rs rd w8)
  | 6 => some (formS 0x23 2 rs rd w4)
  | 7 => some (formS 0x23 3 rs rd w8)
  | _ => none

/-- One of quadrant 1. -/
def expand1 (c : Nat) : Option Nat :=
  let rd := fld c 7 5
  let rs := 8 + fld c 7 3
  let rt := 8 + fld c 2 3
  let i6 := fld c 12 1 * 32 + fld c 2 5
  let b := widen 9 13 (fld c 12 1 * 256 + fld c 10 2 * 8 + fld c 5 2 * 64 + fld c 3 2 * 2 + fld c 2 1 * 32)
  match fld c 13 3 with
  | 0 => some (formI 0x13 0 rd rd (widen 6 12 i6))
  | 1 => if rd = 0 then none else some (formI 0x1B 0 rd rd (widen 6 12 i6))
  | 2 => some (formI 0x13 0 rd 0 (widen 6 12 i6))
  | 3 =>
    if i6 = 0 then none
    else if rd = 2 then
      some (formI 0x13 0 2 2 (widen 10 12 (fld c 12 1 * 512 + fld c 6 1 * 16 + fld c 5 1 * 64 + fld c 3 2 * 128 + fld c 2 1 * 32)))
    else some (formU 0x37 rd (widen 6 20 i6))
  | 4 =>
    match fld c 10 2 with
    | 0 => some (formI 0x13 5 rs rs i6)
    | 1 => some (formI 0x13 5 rs rs (0x400 + i6))
    | 2 => some (formI 0x13 7 rs rs (widen 6 12 i6))
    | _ =>
      match fld c 12 1, fld c 5 2 with
      | 0, 0 => some (formR 0x33 0 0x20 rs rs rt)
      | 0, 1 => some (formR 0x33 4 0 rs rs rt)
      | 0, 2 => some (formR 0x33 6 0 rs rs rt)
      | 0, _ => some (formR 0x33 7 0 rs rs rt)
      | _, 0 => some (formR 0x3B 0 0x20 rs rs rt)
      | _, 1 => some (formR 0x3B 0 0 rs rs rt)
      | _, _ => none
  | 5 =>
    some (formJ 0 (widen 12 21 (fld c 12 1 * 2048 + fld c 11 1 * 16 + fld c 9 2 * 256 + fld c 8 1 * 1024 + fld c 7 1 * 64 + fld c 6 1 * 128 + fld c 3 3 * 2
      + fld c 2 1 * 32)))
  | 6 => some (formB 0 rs 0 b)
  | _ => some (formB 1 rs 0 b)

/-- One of quadrant 2. -/
def expand2 (c : Nat) : Option Nat :=
  let rd := fld c 7 5
  let rt := fld c 2 5
  let w8 := fld c 12 1 * 32 + fld c 5 2 * 8 + fld c 2 3 * 64
  match fld c 13 3 with
  | 0 => some (formI 0x13 1 rd rd (fld c 12 1 * 32 + rt))
  | 1 => some (formI 0x07 3 rd 2 w8)
  | 2 => if rd = 0 then none else some (formI 0x03 2 rd 2 (fld c 12 1 * 32 + fld c 4 3 * 4 + fld c 2 2 * 64))
  | 3 => if rd = 0 then none else some (formI 0x03 3 rd 2 w8)
  | 4 =>
    if fld c 12 1 = 0 then
      (if rt = 0 then (if rd = 0 then none else some (formI 0x67 0 0 rd 0)) else some (formR 0x33 0 0 rd 0 rt))
    else if rt = 0 then (if rd = 0 then some 0x00100073 else some (formI 0x67 0 1 rd 0))
    else some (formR 0x33 0 0 rd rd rt)
  | 5 => some (formS 0x27 3 2 rt (fld c 10 3 * 8 + fld c 7 3 * 64))
  | 6 => some (formS 0x23 2 2 rt (fld c 9 4 * 4 + fld c 7 2 * 64))
  | _ => some (formS 0x23 3 2 rt (fld c 10 3 * 8 + fld c 7 3 * 64))

/-- The word of 32 bits that a compressed instruction stands for. -/
def expandC (c : Nat) : Option Nat :=
  match c % 4 with
  | 0 => expand0 c
  | 1 => expand1 c
  | _ => expand2 c

/-! ### Integer arithmetic -/

/-- A result of 32 bits, sign-extended. -/
def sx32 (v : Word) : Word := sx 32 (v.toNat % 2 ^ 32)

/-- The operations of the register and the immediate forms; `alt` is SUB and SRA. -/
def rvAlu (f3 : Nat) (alt : Bool) (a b : Word) : Word :=
  match f3 with
  | 0 => if alt then a - b else a + b
  | 1 => a <<< (b.toNat % 64)
  | 2 => if a.slt b then 1 else 0
  | 3 => if a.ult b then 1 else 0
  | 4 => a ^^^ b
  | 5 => if alt then a.sshiftRight (b.toNat % 64) else a >>> (b.toNat % 64)
  | 6 => a ||| b
  | _ => a &&& b

/-- Those of 32 bits. -/
def rvAluW (f3 : Nat) (alt : Bool) (a b : Word) : Option Word :=
  let x : BitVec 32 := BitVec.ofNat 32 a.toNat
  let n := b.toNat % 32
  match f3 with
  | 0 => some (sx32 (if alt then a - b else a + b))
  | 1 => some (sx 32 (x <<< n).toNat)
  | 5 => some (sx 32 (if alt then x.sshiftRight n else x >>> n).toNat)
  | _ => none

/-- Multiplication and division (M). -/
def rvMul (f3 : Nat) (a b : Word) : Word :=
  match f3 with
  | 0 => a * b
  | 1 => wordOfInt (a.toInt * b.toInt / 2 ^ 64)
  | 2 => wordOfInt (a.toInt * b.toNat / 2 ^ 64)
  | 3 => zx (a.toNat * b.toNat / 2 ^ 64)
  | 4 => divS a b
  | 5 => divU a b
  | 6 => remS a b
  | _ => remU a b

/-- Those of 32 bits. -/
def rvMulW (f3 : Nat) (a b : Word) : Option Word :=
  let s (v : Word) : Word := sx32 v
  let z (v : Word) : Word := zx (v.toNat % 2 ^ 32)
  match f3 with
  | 0 => some (sx32 (a * b))
  | 4 => some (sx32 (divS (s a) (s b)))
  | 5 => some (sx32 (divU (z a) (z b)))
  | 6 => some (sx32 (remS (s a) (s b)))
  | 7 => some (sx32 (remU (z a) (z b)))
  | _ => none

/-- Whether a branch is taken; none for a number that is none. -/
def rvBranch (f3 : Nat) (a b : Word) : Option Bool :=
  match f3 with
  | 0 => some (a == b)
  | 1 => some (a != b)
  | 4 => some (a.slt b)
  | 5 => some (!a.slt b)
  | 6 => some (a.ult b)
  | 7 => some (!a.ult b)
  | _ => none

/-! ### Floating point (F and D) -/

/-- The two formats, a result's flags being NX 1, UF 2, OF 4, DZ 8 and NV 16. -/
def fp64 : Fmt := ⟨64, 11, 52, 1023, true⟩
def rvFmt (d : Bool) : Fmt := if d then fp64 else fp32

/-- An operand's bits: one of 32 bits that is not boxed is the canonical NaN. -/
def unbox (d : Bool) (v : Word) : Nat :=
  if d then v.toNat else if v.toNat / 2 ^ 32 = 2 ^ 32 - 1 then v.toNat % 2 ^ 32 else fp32.nanBits
/-- A result as a register holds it. -/
def boxed (d : Bool) (n : Nat) : Word := if d then BitVec.ofNat 64 n else BitVec.ofNat 64 (n % 2 ^ 32 + (2 ^ 32 - 1) * 2 ^ 32)

/-- Whether bits are a signalling NaN. -/
def signalling (f : Fmt) (bits : Nat) : Bool := (f.decode bits).isNan && !bits.testBit (f.fbits - 1)

/-- The draw under which a rounding to nearest has its ties away from zero. -/
def tieDraw : Nat := 2 ^ 31 - 1

/-- Rounds m × 2^e, in mode 0 RNE, 1 RTZ, 2 RDN, 3 RUP or 4 RMM; tininess is found after rounding. -/
def rvRound (f : Fmt) (rm : Nat) (v e : Int) : Nat × Nat :=
  let neg := decide (v < 0)
  let l := flog2 v.natAbs e
  let g := max l f.emin - f.fbits
  let r := roundGrid rm tieDraw neg v.natAbs e g
  let up := (roundGrid rm tieDraw neg v.natAbs e (l - f.fbits)).1
  let tiny := decide (l < f.emin) && !(decide (l + 1 = f.emin) && up == 2 ^ (f.fbits + 1))
  ((f.roundFin rm tieDraw false v e).1, if f.exceeds r.1 g then 5 else if r.2 then 0 else (if tiny then 3 else 1))

/-- A value in a format. -/
def rvPut (f : Fmt) (rm : Nat) : Val → Nat × Nat
  | .nan => (f.nanBits, 0)
  | .inf s => (f.infBits s, 0)
  | .zero s => (f.signBit s, 0)
  | .fin m e => rvRound f rm m e

/-- The rounded sum of values. -/
def rvSum (f : Fmt) (rm : Nat) (l : List Val) : Nat × Nat :=
  if l.any Val.isNan then (f.nanBits, 0)
  else if l.any (fun v => v == .inf false) && l.any (fun v => v == .inf true) then (f.nanBits, 16)
  else if l.any Val.isInf then (f.infBits (l.any (fun v => v == .inf true)), 0)
  else if l.all (fun v => v == .zero true) then (f.signBit true, 0)
  else if l.all (fun v => v == .zero false) then (f.signBit false, 0)
  else
    let x := sumDy l
    if x.1 = 0 then (f.signBit (rm == 2), 0) else rvRound f rm x.1 x.2

/-- A quotient of m by n with bits to spare and a last one that says whether more follow. -/
def quotient (m : Int) (e : Int) (n : Int) (g : Int) : Val :=
  let k := 128 + n.natAbs.log2
  let q := m.natAbs * 2 ^ k / n.natAbs
  let mag : Nat := 2 * q + (if m.natAbs * 2 ^ k % n.natAbs = 0 then 0 else 1)
  .fin (if decide (m < 0) != decide (n < 0) then -(mag : Int) else mag) (e - g - k - 1)

/-- A rounded quotient. -/
def rvDiv (f : Fmt) (rm : Nat) (x y : Val) : Nat × Nat :=
  match x, y with
  | .nan, _ | _, .nan => (f.nanBits, 0)
  | .inf s, y => if y.isInf then (f.nanBits, 16) else (f.infBits (s != y.neg), 0)
  | x, .inf s => (f.signBit (x.neg != s), 0)
  | x, .zero s => if x.isZero then (f.nanBits, 16) else (f.infBits (x.neg != s), 8)
  | .zero s, y => (f.signBit (s != y.neg), 0)
  | .fin m e, .fin n g => rvPut f rm (quotient m e n g)

/-- The integer square root of n, from bit b - 1 down. -/
def isqrt (n : Nat) : Nat → Nat → Nat
  | 0, r => r
  | b + 1, r => isqrt n b (if (r + 2 ^ b) * (r + 2 ^ b) ≤ n then r + 2 ^ b else r)

/-- A rounded square root. -/
def rvSqrt (f : Fmt) (rm : Nat) (x : Val) : Nat × Nat :=
  match x with
  | .nan => (f.nanBits, 0)
  | .inf s => if s then (f.nanBits, 16) else (f.infBits false, 0)
  | .zero s => (f.signBit s, 0)
  | .fin m e =>
    if m < 0 then (f.nanBits, 16)
    else
      let k : Nat := 256 + (e % 2).toNat
      let n := m.natAbs * 2 ^ k
      let r := isqrt n 160 0
      rvPut f rm (.fin ((2 * r + (if r * r = n then 0 else 1) : Nat) : Int) ((e - k) / 2 - 1))

/-- The class of a value: the bits 0 to 9 from the negative infinity up. -/
def rvClass (f : Fmt) (bits : Nat) : Nat :=
  let v := f.decode bits
  match v with
  | .nan => if signalling f bits then 2 ^ 8 else 2 ^ 9
  | .inf s => if s then 1 else 2 ^ 7
  | .zero s => if s then 2 ^ 3 else 2 ^ 4
  | .fin m _ => if m < 0 then (if v.subnormal f then 2 ^ 2 else 2) else if v.subnormal f then 2 ^ 5 else 2 ^ 6

/-- The smaller or the larger of two numbers; a NaN counts for neither. -/
def rvMinMax (f : Fmt) (larger : Bool) (a b : Nat) : Nat × Nat :=
  let x := f.decode a
  let y := f.decode b
  let nv := if signalling f a || signalling f b then 16 else 0
  (if x.isNan && y.isNan then f.nanBits else if x.isNan then b else if y.isNan then a
   else if larger then (if x.below y then b else a) else if y.below x then b else a, nv)

/-- A comparison: 0 at most, 1 less, 2 equal. -/
def rvCompare (f : Fmt) (f3 a b : Nat) : Nat × Nat :=
  let x := f.decode a
  let y := f.decode b
  let nan := x.isNan || y.isNan
  let nv := if signalling f a || signalling f b || (nan && f3 != 2) then 16 else 0
  let holds := !nan && (match f3 with | 0 => !y.lt x | 1 => x.lt y | _ => x.eq y)
  (if holds then 1 else 0, nv)

/-- The range of an integer type: 0 a word, 1 an unsigned word, 2 a long, 3 an unsigned long. -/
def rvRange : Nat → Int × Int
  | 0 => (-2 ^ 31, 2 ^ 31 - 1)
  | 1 => (0, 2 ^ 32 - 1)
  | 2 => (-2 ^ 63, 2 ^ 63 - 1)
  | _ => (0, 2 ^ 64 - 1)

/-- A value as an integer; one out of range, or none, is the nearest end and invalid. -/
def rvToInt (ty rm : Nat) (v : Val) : Int × Nat :=
  let r := rvRange ty
  match v with
  | .nan => (r.2, 16)
  | .inf s => (if s then r.1 else r.2, 16)
  | .zero _ => (0, 0)
  | .fin m e =>
    let n := roundInt rm tieDraw m e
    if n < r.1 then (r.1, 16) else if r.2 < n then (r.2, 16) else (n, if (roundGrid rm tieDraw (decide (m < 0)) m.natAbs e 0).2 then 0 else 1)

/-- An integer register as one of those types. -/
def rvInt (ty : Nat) (v : Word) : Int :=
  match ty with
  | 0 => signed 32 v.toNat
  | 1 => ((v.toNat % 2 ^ 32 : Nat) : Int)
  | 2 => v.toInt
  | _ => (v.toNat : Int)

/-- The rounding mode an instruction asks for; none for a number that is none. -/
def Hart.mode (h : Hart) (rm : Nat) : Option Nat :=
  let m := if rm = 7 then wfld (h.raw 3) 5 3 else rm
  if m ≤ 4 then some m else none

/-- Arithmetic of two operands, under the upper bits of funct7: sum, difference, product, quotient, root. -/
def rvArith (f : Fmt) (op rm a b : Nat) : Option (Nat × Nat) :=
  let x := f.decode a
  let y := f.decode b
  let nv := if signalling f a || (op != 11 && signalling f b) then 16 else 0
  let put (r : Nat × Nat) : Option (Nat × Nat) := some (r.1, r.2 ||| nv)
  match op with
  | 0 => put (rvSum f rm [x, y])
  | 1 => put (rvSum f rm [x, y.negate])
  | 2 => put (let r := rvSum f rm [x.mul y]; (r.1, r.2 ||| (if infTimesZero x y then 16 else 0)))
  | 3 => put (rvDiv f rm x y)
  | 11 => put (rvSqrt f rm x)
  | _ => none

/-- A fused product and sum: 0 MADD, 1 MSUB, 2 NMSUB, 3 NMADD. -/
def rvFused (f : Fmt) (op rm a b c : Nat) : Nat × Nat :=
  let x := f.decode a
  let y := f.decode b
  let z := f.decode c
  let p := x.mul y
  let nv := if signalling f a || signalling f b || signalling f c || infTimesZero x y then 16 else 0
  let r := rvSum f rm [if 2 ≤ op then p.negate else p, if op = 1 ∨ op = 3 then z.negate else z]
  (r.1, r.2 ||| nv)

/-- A conversion between the two formats. -/
def rvConvert (src dst : Fmt) (rm a : Nat) : Nat × Nat :=
  let r := rvPut dst rm (src.decode a)
  (r.1, r.2 ||| (if signalling src a then 16 else 0))

/-- The operations of opcode 0x53; none for an encoding that is none. -/
def Hart.float (h : Hart) (w : Nat) : Option Hart :=
  let d := fld w 25 1 == 1
  let f := rvFmt d
  let f3 := fld w 12 3
  let rs2 := fld w 20 5
  let rd := fld w 7 5
  let op := fld w 27 5
  let a := unbox d (h.fget (fld w 15 5))
  let b := unbox d (h.fget rs2)
  let toF (d : Bool) (r : Nat × Nat) : Option Hart := some ((h.fset rd (boxed d r.1)).flags r.2)
  let toX (v : Word) (fl : Nat) : Option Hart := some ((h.set rd v).flags fl)
  let sign (n : Nat) : Nat := n / 2 ^ (f.width - 1) % 2
  if fld w 26 1 = 1 then none
  else
    match op with
    | 0 | 1 | 2 | 3 => (h.mode f3).bind (fun rm => (rvArith f op rm a b).bind (toF d))
    | 11 => if rs2 ≠ 0 then none else (h.mode f3).bind (fun rm => (rvArith f op rm a b).bind (toF d))
    | 4 =>
      let put (s : Nat) : Option Hart := toF d (a % 2 ^ (f.width - 1) + s % 2 * 2 ^ (f.width - 1), 0)
      match f3 with
      | 0 => put (sign b)
      | 1 => put (1 - sign b)
      | 2 => put (sign a + sign b)
      | _ => none
    | 5 => if f3 ≤ 1 then toF d (rvMinMax f (f3 == 1) a b) else none
    | 8 =>
      if (d && rs2 == 0) || (!d && rs2 == 1) then
        (h.mode f3).bind (fun rm => toF d (rvConvert (rvFmt (!d)) f rm (unbox (!d) (h.fget (fld w 15 5)))))
      else none
    | 20 => if f3 ≤ 2 then let r := rvCompare f f3 a b; toX (zx r.1) r.2 else none
    | 24 =>
      if 4 ≤ rs2 then none
      else (h.mode f3).bind (fun rm => let r := rvToInt rs2 rm (f.decode a); toX (if rs2 ≤ 1 then sx32 (wordOfInt r.1) else wordOfInt r.1) r.2)
    | 26 => if 4 ≤ rs2 then none else (h.mode f3).bind (fun rm => toF d (rvPut f rm (Val.ofInt (rvInt rs2 (h.get (fld w 15 5))))))
    | 28 =>
      if rs2 ≠ 0 then none
      else if f3 = 0 then toX (if d then h.fget (fld w 15 5) else sx32 (h.fget (fld w 15 5))) 0
      else if f3 = 1 then toX (zx (rvClass f a)) 0
      else none
    | 30 => if rs2 = 0 ∧ f3 = 0 then toF d ((h.get (fld w 15 5)).toNat, 0) else none
    | _ => none

/-! ### Atomics (A) -/

/-- The function of an atomic on its old value and operand, at a width in bits. -/
def rvAmo (op bits : Nat) (old v : Nat) : Option Nat :=
  let v := v % 2 ^ bits
  match op with
  | 0 => some ((old + v) % 2 ^ bits)
  | 1 => some v
  | 4 => some (old ^^^ v)
  | 8 => some (old ||| v)
  | 12 => some (old &&& v)
  | 16 => some (if signed bits v < signed bits old then v else old)
  | 20 => some (if signed bits old < signed bits v then v else old)
  | 24 => some (min old v)
  | 28 => some (max old v)
  | _ => none

/-- LR, SC and the atomics: on memory only, as one access; SC stores if the reserved bytes have stayed as LR found them. -/
def State.hartAtomic (s : State) (i : Nat) (h : Hart) (w : Nat) (illegal : HartOut) : HartOut :=
  let f3 := fld w 12 3
  let op := fld w 27 5
  let n := 2 ^ f3
  let va := h.get (fld w 15 5)
  let pa := va.toNat
  let v := (h.get (fld w 20 5)).toNat
  let rd := fld w 7 5
  let put (x : Nat) : Word := if f3 = 2 then sx32 (zx x) else zx x
  if f3 ≠ 2 ∧ f3 ≠ 3 then illegal
  else if op = 2 then
    (if fld w 20 5 ≠ 0 then illegal
     else if !inMemory pa && decide (pa % n = 0) then .trap 5 va
     else s.hartLoad i h va n (fun x => .done { h.set rd (put x) with resv := some (pa, n, x) } s))
  else if op = 3 then
    (if pa % n ≠ 0 then .trap 6 va
     else if !inMemory pa || !s.hartMay i h pa n 1 then .trap 7 va
     else
       match h.resv with
       | some (a, k, x) =>
         if a = pa ∧ k = n ∧ s.rdNat a k = x then
           s.hartStore i h va n (v % 2 ^ (8 * n)) (fun s => .done { h.set rd 0 with resv := none } s)
         else .done { h.set rd 1 with resv := none } s
       | none => .done (h.set rd 1) s)
  else
    match rvAmo op (8 * n) (s.rdNat pa n) v with
    | none => illegal
    | some new =>
      if pa % n ≠ 0 then .trap 6 va
      else if !inMemory pa || !s.hartMay i h pa n 0 then .trap 7 va
      else s.hartStore i h va n new (fun s' => .done (h.set rd (put (s.rdNat pa n))) s')

/-! ### One instruction -/

/-- The control and status instructions. -/
def Hart.csrOp (h : Hart) (i lines cycle w : Nat) : Option Hart :=
  let n := fld w 20 12
  let f3 := fld w 12 3
  let src := fld w 15 5
  let x : Word := if 4 ≤ f3 then zx src else h.get src
  let wr := f3 % 4 == 1 || src != 0
  if !h.mayCsr n wr then none
  else
    (h.read i lines cycle n).map (fun old =>
      let held := if n = 0x344 then h.raw n else old
      let new := match f3 % 4 with | 1 => x | 2 => held ||| x | _ => held &&& ~~~x
      (if wr then h.write cycle n new else h).set (fld w 7 5) old)

/-- The return from a trap taken at M or at S. -/
def Hart.mret (h : Hart) : Hart :=
  let h' := ((h.setStatus 3 1 (if h.status 7 then 1 else 0)).setStatus 7 1 1).setStatus 11 2 0
  let level := HartLevel.ofNum (wfld (h.raw 0x300) 11 2)
  { (if level = .m then h' else h'.setStatus 17 1 0) with level := level, pc := h.raw 0x341 }
def Hart.sret (h : Hart) : Hart :=
  let h' := (((h.setStatus 1 1 (if h.status 5 then 1 else 0)).setStatus 5 1 1).setStatus 8 1 0).setStatus 17 1 0
  { h' with level := HartLevel.ofNum (wfld (h.raw 0x300) 8 1), pc := h.raw 0x141 }

/-- The system instructions without a register: calls, returns, WFI, which only goes on, and the fence of translations. -/
def Hart.system (h : Hart) (w : Nat) (next : Hart) (s : State) (illegal : HartOut) : HartOut :=
  match w with
  | 0x00000073 => .trap (8 + h.level.num) 0
  | 0x00100073 => .trap 3 h.pc
  | 0x10200073 => if h.level = .u ∨ (h.level = .s ∧ h.status 22) then illegal else .done h.sret s
  | 0x30200073 => if h.level = .m then .done h.mret s else illegal
  | 0x10500073 => if h.level = .u ∨ (h.level = .s ∧ h.status 21) then illegal else .done next s
  | _ =>
    if fld w 25 7 = 9 ∧ fld w 7 5 = 0 ∧ fld w 12 3 = 0 then (if h.level = .u ∨ (h.level = .s ∧ h.status 20) then illegal else .done next s)
    else illegal

/-- A load's value as its register takes it. -/
def rvLoaded (f3 x : Nat) : Word :=
  match f3 with
  | 0 => sx 8 x
  | 1 => sx 16 x
  | 2 => sx 32 x
  | _ => zx x

/-- Runs an instruction of 32 bits; `len` is how far the next one is, and `bits` what an illegal one reports. -/
def State.hartRun (s : State) (i : Nat) (h : Hart) (w len bits : Nat) : HartOut :=
  let illegal : HartOut := .trap 2 (zx bits)
  let rd := fld w 7 5
  let f3 := fld w 12 3
  let f7 := fld w 25 7
  let a := h.get (fld w 15 5)
  let b := h.get (fld w 20 5)
  let on (h : Hart) : Hart := { h with pc := h.pc + BitVec.ofNat 64 len }
  let put (v : Word) : HartOut := .done (on (h.set rd v)) s
  let opt (o : Option Word) : HartOut := match o with | some v => put v | none => illegal
  let fpOff : Bool := wfld (h.raw 0x300) 13 2 == 0
  let d := f3 == 3
  let step (o : HartOut) : HartOut := match o with | .done h s => .done (on h) s | o => o
  match w % 128 with
  | 0x37 => put (immU w)
  | 0x17 => put (h.pc + immU w)
  | 0x6F => .done { h.set rd (h.pc + BitVec.ofNat 64 len) with pc := h.pc + immJ w } s
  | 0x67 => if f3 ≠ 0 then illegal else .done { h.set rd (h.pc + BitVec.ofNat 64 len) with pc := (a + immI w) &&& ~~~1 } s
  | 0x63 =>
    match rvBranch f3 a b with
    | some t => .done (if t then { h with pc := h.pc + immB w } else on h) s
    | none => illegal
  | 0x03 => if f3 = 7 then illegal else s.hartLoad i h (a + immI w) (2 ^ (f3 % 4)) (fun x => put (rvLoaded f3 x))
  | 0x23 => if 4 ≤ f3 then illegal else s.hartStore i h (a + immS w) (2 ^ f3) (b.toNat % 2 ^ (8 * 2 ^ f3)) (fun s => .done (on h) s)
  | 0x13 =>
    if (f3 = 1 ∧ f7 / 2 ≠ 0) ∨ (f3 = 5 ∧ f7 / 2 ≠ 0 ∧ f7 / 2 ≠ 0x10) then illegal
    else put (rvAlu f3 (f3 == 5 && f7 / 2 == 0x10) a (immI w))
  | 0x1B =>
    if (f3 = 1 ∧ f7 ≠ 0) ∨ (f3 = 5 ∧ f7 ≠ 0 ∧ f7 ≠ 0x20) then illegal else opt (rvAluW f3 (f3 == 5 && f7 == 0x20) a (immI w))
  | 0x33 =>
    if f7 = 1 then put (rvMul f3 a b)
    else if f7 = 0 ∨ (f7 = 0x20 ∧ (f3 = 0 ∨ f3 = 5)) then put (rvAlu f3 (f7 == 0x20) a b)
    else illegal
  | 0x3B =>
    if f7 = 1 then opt (rvMulW f3 a b)
    else if f7 = 0 ∨ (f7 = 0x20 ∧ (f3 = 0 ∨ f3 = 5)) then opt (rvAluW f3 (f7 == 0x20) a b)
    else illegal
  | 0x0F => if f3 ≤ 1 then .done (on h) s else illegal
  | 0x2F => step (s.hartAtomic i h w illegal)
  | 0x07 =>
    if fpOff || (f3 != 2 && f3 != 3) then illegal
    else s.hartLoad i h (a + immI w) (2 ^ f3) (fun x => .done (on (h.fset rd (boxed d x))) s)
  | 0x27 =>
    if fpOff || (f3 != 2 && f3 != 3) then illegal
    else s.hartStore i h (a + immS w) (2 ^ f3) ((h.fget (fld w 20 5)).toNat % 2 ^ (8 * 2 ^ f3)) (fun s => .done (on h) s)
  | 0x43 | 0x47 | 0x4B | 0x4F =>
    if fpOff || fld w 26 1 == 1 then illegal
    else
      match h.mode f3 with
      | some rm =>
        let d := fld w 25 1 == 1
        let r := rvFused (rvFmt d) (w % 128 / 4 - 16) rm (unbox d (h.fget (fld w 15 5))) (unbox d (h.fget (fld w 20 5))) (unbox d (h.fget (fld w 27 5)))
        .done (on ((h.fset rd (boxed d r.1)).flags r.2)) s
      | none => illegal
  | 0x53 =>
    if fpOff then illegal
    else match h.float w with | some h => .done (on h) s | none => illegal
  | 0x73 =>
    if f3 = 0 then h.system w (on h) s illegal
    else if f3 = 4 then illegal
    else match h.csrOp i (s.lines i) s.cycle w with | some h => .done (on h) s | none => illegal
  | _ => illegal

/-- Whether a hart may fetch two bytes: from memory, as its protection lets it. -/
def Hart.mayFetch (h : Hart) (pa : Nat) : Bool := inMemory pa && h.pmpOk h.level pa 2 2

/-- Fetches and runs one instruction of a pair's hart, or takes an interrupt; mcause, mtval and the rest as the trap gives them. -/
def State.hartStep (s : State) (i : Nat) : State :=
  let h := s.cur.hart i
  let put (h : Hart) (s : State) : State := { s with cur := { s.cur with harts := setNth s.cur.harts i h } }
  let pa := h.pc.toNat
  let lo := s.rdNat pa 2
  let wide := lo % 4 == 3
  let w := lo + s.rdNat (pa + 2) 2 * 2 ^ 16
  let finish (o : HartOut) : State :=
    match o with
    | .done h' s => put (if h'.raw 0xB02 = h.raw 0xB02 then h'.hold 0xB02 (h.raw 0xB02 + 1) else h') s
    | .trap c v => put (h.trap c v false) s
    | .wait => s
  match h.taken (s.lines i) with
  | some c => put (h.trap c 0 true) s
  | none =>
    if !h.mayFetch pa then put (h.trap 1 h.pc false) s
    else if wide then
      (if !h.mayFetch (pa + 2) then put (h.trap 1 (h.pc + 2) false) s else finish (s.hartRun i h w 4 w))
    else
      match expandC lo with
      | some w => finish (s.hartRun i h w 2 lo)
      | none => put (h.trap 2 (zx lo) false) s

/-- A turn of a pair's hart: one instruction, while the pair runs; while the module stays in reset only pair D does (18 R388). -/
def State.hartTurn (s : State) (i : Nat) : State :=
  if s.mode = .off ∨ (s.mode = .reset ∧ i ≠ 3) ∨ 4 ≤ i ∨ s.cur.pair i = .stopped ∨ s.cur.pair i = .held then s else s.hartStep i

/-- A line that the manual does not tie to a register: software and timer interrupts, and the external ones for other causes. -/
def State.hartLine (s : State) (i n : Nat) (up : Bool) : State :=
  if n = 3 ∨ n = 7 ∨ n = 9 ∨ n = 11 then
    let h := s.cur.hart i
    let v := h.raw 0x344
    { s with cur := { s.cur with harts := setNth s.cur.harts i (h.hold 0x344 (withFld v n 1 (if up then 1 else 0))) } }
  else s

/-! ### What the pairs do without a row (13 R274, 17 R386, 18 R389, R394) -/

/-- The archive slot that does not hold the highest valid sequence is erased, after which its bytes read as unwritten flash (log entry 36). -/
def State.eraseSlot (s : State) : State := s.clearRange (flashAt s.archiveSlot) 0x1000000

/-- A turn of a pair of the Curator. -/
def State.takeCurator (s : State) (x : CuratorAct) : State :=
  match x with
  | .hart i => s.hartTurn i
  | .line i n up => s.hartLine i n up
  | .measure n digest => if s.monitored ∧ 5 ≤ n ∧ n ≤ 15 then { s with service := s.service.extend n digest } else s
  | .loadSloush x =>
    match (List.range 2).find? (fun i => s.cur.pair i == .standby) with
    | some i =>
      if s.mode = .running ∧ s.cur.takeover = false ∧ s.accepts s.service.imageKey 2 x = true then
        let d := sha384 (s.imageBytes x)
        ({ s with service := s.service.extend 2 d,
                  cur := { s.cur with sloush := setNth s.cur.sloush i d, sloushAt := setNth s.cur.sloushAt i x } } : State).storeSloush (5 + i) x
      else s
    | none => s
  | .verify kind x => s.verifyUpdate kind x
  | .stage r => s.nextStage r
  | .eraseSlot => if s.mode = .running ∧ s.cur.pair 2 = .service then s.eraseSlot else s
  | .corrected u => { s with cur := { s.cur with corrected := Table.put s.cur.corrected u (Table.get 0 s.cur.corrected u + 1) } }

end Sys2Proof.Machine
end

