-- ==== Sys2Proof/Machine/Dispatch.lean ====
section
/-! DEFINITION. The meaning of every instruction, packet and event, one arm per constructor, each a call of its own definition. -/

namespace Sys2Proof.Machine

/-- The meaning of an instruction in a state. -/
def exec (i : Instr) (s : State) : Host.Outcome State Fault Refusal :=
  match i with
  | .add gd d a b => Sys2Proof.Machine.execAdd gd d a b s
  | .sub gd d a b => Sys2Proof.Machine.execSub gd d a b s
  | .and gd d a b => Sys2Proof.Machine.execAnd gd d a b s
  | .or gd d a b => Sys2Proof.Machine.execOr gd d a b s
  | .xor gd d a b => Sys2Proof.Machine.execXor gd d a b s
  | .andn gd d a b => Sys2Proof.Machine.execAndn gd d a b s
  | .shl gd d a b => Sys2Proof.Machine.execShl gd d a b s
  | .shr gd d a b => Sys2Proof.Machine.execShr gd d a b s
  | .sha gd d a b => Sys2Proof.Machine.execSha gd d a b s
  | .rot gd d a b => Sys2Proof.Machine.execRot gd d a b s
  | .min gd d a b => Sys2Proof.Machine.execMin gd d a b s
  | .max gd d a b => Sys2Proof.Machine.execMax gd d a b s
  | .minn gd d a b => Sys2Proof.Machine.execMinn gd d a b s
  | .maxn gd d a b => Sys2Proof.Machine.execMaxn gd d a b s
  | .clz gd d a => Sys2Proof.Machine.execClz gd d a s
  | .ctz gd d a => Sys2Proof.Machine.execCtz gd d a s
  | .popc gd d a => Sys2Proof.Machine.execPopc gd d a s
  | .mul gd d a b => Sys2Proof.Machine.execMul gd d a b s
  | .mulh gd d a b => Sys2Proof.Machine.execMulh gd d a b s
  | .mulhn gd d a b => Sys2Proof.Machine.execMulhn gd d a b s
  | .div gd d a b => Sys2Proof.Machine.execDiv gd d a b s
  | .divn gd d a b => Sys2Proof.Machine.execDivn gd d a b s
  | .rem gd d a b => Sys2Proof.Machine.execRem gd d a b s
  | .remn gd d a b => Sys2Proof.Machine.execRemn gd d a b s
  | .addi gd d a xi => Sys2Proof.Machine.execAddi gd d a xi s
  | .andi gd d a xi => Sys2Proof.Machine.execAndi gd d a xi s
  | .ori gd d a xi => Sys2Proof.Machine.execOri gd d a xi s
  | .xori gd d a xi => Sys2Proof.Machine.execXori gd d a xi s
  | .shli gd d a xs => Sys2Proof.Machine.execShli gd d a xs s
  | .shri gd d a xs => Sys2Proof.Machine.execShri gd d a xs s
  | .shai gd d a xs => Sys2Proof.Machine.execShai gd d a xs s
  | .roti gd d a xs => Sys2Proof.Machine.execRoti gd d a xs s
  | .li gd d xi => Sys2Proof.Machine.execLi gd d xi s
  | .lis gd d xi => Sys2Proof.Machine.execLis gd d xi s
  | .cmp gd k a b c => Sys2Proof.Machine.execCmp gd k a b c s
  | .cmpn gd k a b c => Sys2Proof.Machine.execCmpn gd k a b c s
  | .cmpi gd k a xi c => Sys2Proof.Machine.execCmpi gd k a xi c s
  | .cmpin gd k a xi c => Sys2Proof.Machine.execCmpin gd k a xi c s
  | .kand gd d a b => Sys2Proof.Machine.execKand gd d a b s
  | .kor gd d a b => Sys2Proof.Machine.execKor gd d a b s
  | .kxor gd d a b => Sys2Proof.Machine.execKxor gd d a b s
  | .kandn gd d a b => Sys2Proof.Machine.execKandn gd d a b s
  | .pbt gd t xs => Sys2Proof.Machine.execPbt gd t xs s
  | .pbtr gd t a => Sys2Proof.Machine.execPbtr gd t a s
  | .xfer gd t => Sys2Proof.Machine.execXfer gd t s
  | .xferl gd t d => Sys2Proof.Machine.execXferl gd t d s
  | .ld gd d a o z r xs => Sys2Proof.Machine.execLd gd d a o z r xs s
  | .ldn gd d a o z r xs => Sys2Proof.Machine.execLdn gd d a o z r xs s
  | .st gd d a o z r xs => Sys2Proof.Machine.execSt gd d a o z r xs s
  | .sld gd d a o z r xs => Sys2Proof.Machine.execSld gd d a o z r xs s
  | .sldn gd d a o z r xs => Sys2Proof.Machine.execSldn gd d a o z r xs s
  | .sst gd d a o z r xs => Sys2Proof.Machine.execSst gd d a o z r xs s
  | .amo gd d a b f z o => Sys2Proof.Machine.execAmo gd d a b f z o s
  | .amor gd d a b f z o => Sys2Proof.Machine.execAmor gd d a b f z o s
  | .samo gd d a b f z o => Sys2Proof.Machine.execSamo gd d a b f z o s
  | .samor gd d a b f z o => Sys2Proof.Machine.execSamor gd d a b f z o s
  | .cas gd d a b p f z xs => Sys2Proof.Machine.execCas gd d a b p f z xs s
  | .fenceWw gd => Sys2Proof.Machine.execFenceWw gd s
  | .fenceFull gd => Sys2Proof.Machine.execFenceFull gd s
  | .fenceAllCore gd => Sys2Proof.Machine.execFenceAllCore gd s
  | .fenceAllDie gd => Sys2Proof.Machine.execFenceAllDie gd s
  | .fenceAllDomain gd => Sys2Proof.Machine.execFenceAllDomain gd s
  | .bind gd d a b k xs => Sys2Proof.Machine.execBind gd d a b k xs s
  | .unbind gd d a xs => Sys2Proof.Machine.execUnbind gd d a xs s
  | .semadd gd a b => Sys2Proof.Machine.execSemadd gd a b s
  | .semwait gd a b => Sys2Proof.Machine.execSemwait gd a b s
  | .semwdec gd a b => Sys2Proof.Machine.execSemwdec gd a b s
  | .semget gd d a => Sys2Proof.Machine.execSemget gd d a s
  | .semarm gd a b => Sys2Proof.Machine.execSemarm gd a b s
  | .cmd gd d a e => Sys2Proof.Machine.execCmd gd d a e s
  | .cmdr gd d a b e => Sys2Proof.Machine.execCmdr gd d a b e s
  | .cpyt gd d a b xs t => Sys2Proof.Machine.execCpyt gd d a b xs t s
  | .kpop gd d => Sys2Proof.Machine.execKpop gd d s
  | .mfs gd d x => Sys2Proof.Machine.execMfs gd d x s
  | .mts gd d x => Sys2Proof.Machine.execMts gd d x s
  | .swpt gd xi => Sys2Proof.Machine.execSwpt gd xi s
  | .clkdiv gd a => Sys2Proof.Machine.execClkdiv gd a s
  | .park gd => Sys2Proof.Machine.execPark gd s
  | .yield gd => Sys2Proof.Machine.execYield gd s
  | .trap gd c => Sys2Proof.Machine.execTrap gd c s
  | .brk gd c => Sys2Proof.Machine.execBrk gd c s
  | .tren gd => Sys2Proof.Machine.execTren gd s
  | .tret gd => Sys2Proof.Machine.execTret gd s
  | .tsnap gd a b => Sys2Proof.Machine.execTsnap gd a b s
  | .wake gd a => Sys2Proof.Machine.execWake gd a s
  | .nop gd => Sys2Proof.Machine.execNop gd s
  | .mov16 d a => Sys2Proof.Machine.execMov16 d a s
  | .add16 d a => Sys2Proof.Machine.execAdd16 d a s
  | .sub16 d a => Sys2Proof.Machine.execSub16 d a s
  | .and16 d a => Sys2Proof.Machine.execAnd16 d a s
  | .or16 d a => Sys2Proof.Machine.execOr16 d a s
  | .xor16 d a => Sys2Proof.Machine.execXor16 d a s
  | .addi16 d xi => Sys2Proof.Machine.execAddi16 d xi s
  | .li16 d xi => Sys2Proof.Machine.execLi16 d xi s
  | .shli16 d xs => Sys2Proof.Machine.execShli16 d xs s
  | .shri16 d xs => Sys2Proof.Machine.execShri16 d xs s
  | .xfer16 t => Sys2Proof.Machine.execXfer16 t s
  | .kpop16 d => Sys2Proof.Machine.execKpop16 d s
  | .nop16 => Sys2Proof.Machine.execNop16 s
  | .illegalInstruction word => Sys2Proof.Machine.execIllegalInstruction word s
  | .blk l r => Sys2Proof.Machine.execBlk l r s
  | .mark gd => Sys2Proof.Machine.execMark gd s
  | .vadd gd d a b t => Sys2Proof.Machine.execVadd gd d a b t s
  | .vsub gd d a b t => Sys2Proof.Machine.execVsub gd d a b t s
  | .vmul gd d a b t => Sys2Proof.Machine.execVmul gd d a b t s
  | .vfma gd d a b t => Sys2Proof.Machine.execVfma gd d a b t s
  | .vfms gd d a b t => Sys2Proof.Machine.execVfms gd d a b t s
  | .vmax gd d a b t => Sys2Proof.Machine.execVmax gd d a b t s
  | .vmin gd d a b t => Sys2Proof.Machine.execVmin gd d a b t s
  | .vabs gd d a t => Sys2Proof.Machine.execVabs gd d a t s
  | .vneg gd d a t => Sys2Proof.Machine.execVneg gd d a t s
  | .vclass gd d a t => Sys2Proof.Machine.execVclass gd d a t s
  | .vrcp gd d a t => Sys2Proof.Machine.execVrcp gd d a t s
  | .vrsq gd d a t => Sys2Proof.Machine.execVrsq gd d a t s
  | .vexp2 gd d a t => Sys2Proof.Machine.execVexp2 gd d a t s
  | .vlog2 gd d a t => Sys2Proof.Machine.execVlog2 gd d a t s
  | .vtanh gd d a t => Sys2Proof.Machine.execVtanh gd d a t s
  | .vcvt gd d a xs f => Sys2Proof.Machine.execVcvt gd d a xs f s
  | .vrq gd d a b t => Sys2Proof.Machine.execVrq gd d a b t s
  | .vpack gd d a b t => Sys2Proof.Machine.execVpack gd d a b t s
  | .vunpk gd d a h t => Sys2Proof.Machine.execVunpk gd d a h t s
  | .vcmpf gd p a b c t => Sys2Proof.Machine.execVcmpf gd p a b c t s
  | .vcmpi gd p a b c t => Sys2Proof.Machine.execVcmpi gd p a b c t s
  | .viadd gd d a b t => Sys2Proof.Machine.execViadd gd d a b t s
  | .visub gd d a b t => Sys2Proof.Machine.execVisub gd d a b t s
  | .vimul gd d a b t => Sys2Proof.Machine.execVimul gd d a b t s
  | .vimax gd d a b t => Sys2Proof.Machine.execVimax gd d a b t s
  | .vimin gd d a b t => Sys2Proof.Machine.execVimin gd d a b t s
  | .vimaxn gd d a b t => Sys2Proof.Machine.execVimaxn gd d a b t s
  | .viminn gd d a b t => Sys2Proof.Machine.execViminn gd d a b t s
  | .vand gd d a b t => Sys2Proof.Machine.execVand gd d a b t s
  | .vor gd d a b t => Sys2Proof.Machine.execVor gd d a b t s
  | .vxor gd d a b t => Sys2Proof.Machine.execVxor gd d a b t s
  | .vandn gd d a b t => Sys2Proof.Machine.execVandn gd d a b t s
  | .vshl gd d a b t => Sys2Proof.Machine.execVshl gd d a b t s
  | .vshr gd d a b t => Sys2Proof.Machine.execVshr gd d a b t s
  | .vsha gd d a b t => Sys2Proof.Machine.execVsha gd d a b t s
  | .vmov gd d a t => Sys2Proof.Machine.execVmov gd d a t s
  | .vbcast gd d a k t => Sys2Proof.Machine.execVbcast gd d a k t s
  | .viota gd d k t => Sys2Proof.Machine.execViota gd d k t s
  | .vshuf gd d a b t => Sys2Proof.Machine.execVshuf gd d a b t s
  | .vslide gd d a k r t => Sys2Proof.Machine.execVslide gd d a k r t s
  | .vredadd gd d a t => Sys2Proof.Machine.execVredadd gd d a t s
  | .vredmax gd d a t => Sys2Proof.Machine.execVredmax gd d a t s
  | .vredmin gd d a t => Sys2Proof.Machine.execVredmin gd d a t s
  | .vrediadd gd d a t => Sys2Proof.Machine.execVrediadd gd d a t s
  | .pand gd d a b => Sys2Proof.Machine.execPand gd d a b s
  | .por gd d a b => Sys2Proof.Machine.execPor gd d a b s
  | .pxor gd d a b => Sys2Proof.Machine.execPxor gd d a b s
  | .pandn gd d a b => Sys2Proof.Machine.execPandn gd d a b s
  | .pset d f l => Sys2Proof.Machine.execPset d f l s
  | .vany gd a t => Sys2Proof.Machine.execVany gd a t s
  | .vall gd a t => Sys2Proof.Machine.execVall gd a t s
  | .vld gd d k c o p => Sys2Proof.Machine.execVld gd d k c o p s
  | .vst gd d k c o p => Sys2Proof.Machine.execVst gd d k c o p s
  | .vldx gd d k b c e => Sys2Proof.Machine.execVldx gd d k b c e s
  | .vstx gd d k b c e => Sys2Proof.Machine.execVstx gd d k b c e s
  | .aadd k xi => Sys2Proof.Machine.execAadd k xi s
  | .ali k xi => Sys2Proof.Machine.execAli k xi s
  | .apail a h xs k => Sys2Proof.Machine.execApail a h xs k s
  | .pailw h c => Sys2Proof.Machine.execPailw h c s
  | .pailf h c => Sys2Proof.Machine.execPailf h c s
  | .paila h c xs => Sys2Proof.Machine.execPaila h c xs s
  | .dwait c l => Sys2Proof.Machine.execDwait c l s
  | .vsig e c => Sys2Proof.Machine.execVsig e c s
  | .vwait e c w => Sys2Proof.Machine.execVwait e c w s
  | .vwin t h => Sys2Proof.Machine.execVwin t h s
  | .vcfg xs xi => Sys2Proof.Machine.execVcfg xs xi s
  | .mcel gd xs k => Sys2Proof.Machine.execMcel gd xs k s
  | .mldw gd xs => Sys2Proof.Machine.execMldw gd xs s
  | .mpln gd p => Sys2Proof.Machine.execMpln gd p s
  | .mma gd t k r b m => Sys2Proof.Machine.execMma gd t k r b m s
  | .mmab gd t k r b => Sys2Proof.Machine.execMmab gd t k r b s
  | .mret gd t => Sys2Proof.Machine.execMret gd t s
  | .mzro gd t => Sys2Proof.Machine.execMzro gd t s
  | .mcat gd r k => Sys2Proof.Machine.execMcat gd r k s
  | .mwait gd k xi c => Sys2Proof.Machine.execMwait gd k xi c s
  | .madv gd h xs c => Sys2Proof.Machine.execMadv gd h xs c s
  | .msig gd e c => Sys2Proof.Machine.execMsig gd e c s
  | .cmov gd d a l p q e => Sys2Proof.Machine.execCmov gd d a l p q e s
  | .cfil gd d l v p e => Sys2Proof.Machine.execCfil gd d l v p e s
  | .cpush gd e k => Sys2Proof.Machine.execCpush gd e k s
  | .cpop gd e k => Sys2Proof.Machine.execCpop gd e k s
  | .cfol gd => Sys2Proof.Machine.execCfol gd s
  | .csig gd e c => Sys2Proof.Machine.execCsig gd e c s
  | .cwait gd k xi c => Sys2Proof.Machine.execCwait gd k xi c s
  | .cadv gd h xs c => Sys2Proof.Machine.execCadv gd h xs c s
  | .xsnd gd d a l xs => Sys2Proof.Machine.execXsnd gd d a l xs s
  | .xred gd d h t => Sys2Proof.Machine.execXred gd d h t s
  | .xcad gd d v o z => Sys2Proof.Machine.execXcad gd d v o z s
  | .xbcs gd p d a l => Sys2Proof.Machine.execXbcs gd p d a l s
  | .xgat gd d a l => Sys2Proof.Machine.execXgat gd d a l s
  | .xsig gd e c => Sys2Proof.Machine.execXsig gd e c s
  | .xwait gd k xi c => Sys2Proof.Machine.execXwait gd k xi c s
  | .xadv gd h xs c => Sys2Proof.Machine.execXadv gd h xs c s
  | .qlaunch after weight cls dies depth bodyLen body bodySum arg => Sys2Proof.Machine.execQlaunch after weight cls dies depth bodyLen body bodySum arg s
  | .qcall addr len => Sys2Proof.Machine.execQcall addr len s
  | .qret => Sys2Proof.Machine.execQret s
  | .qjump addr len => Sys2Proof.Machine.execQjump addr len s
  | .qpred cond addr value skip => Sys2Proof.Machine.execQpred cond addr value skip s
  | .qloop count => Sys2Proof.Machine.execQloop count s
  | .qlend => Sys2Proof.Machine.execQlend s
  | .qwrite addr value => Sys2Proof.Machine.execQwrite addr value s
  | .qfence => Sys2Proof.Machine.execQfence s
  | .qnop len => Sys2Proof.Machine.execQnop len s
  | .qsignal after handle n => Sys2Proof.Machine.execQsignal after handle n s
  | .qwait dec handle n signaller => Sys2Proof.Machine.execQwait dec handle n signaller s
  | .illegalPacket code => Sys2Proof.Machine.execIllegalPacket code s
  | .choose => Sys2Proof.Machine.execChoose s
  | .notify q tail nonce tag reserved => Sys2Proof.Machine.execNotify q tail nonce tag reserved s
  | .queueSetRun q => Sys2Proof.Machine.execQueueSetRun q s
  | .queueSetOff q => Sys2Proof.Machine.execQueueSetOff q s
  | .queueCountsWrite q which v => Sys2Proof.Machine.execQueueCountsWrite q which v s
  | .quarClear q => Sys2Proof.Machine.execQuarClear q s
  | .errmapClear q => Sys2Proof.Machine.execErrmapClear q s
  | .offer die => Sys2Proof.Machine.execOffer die s
  | .offerAnswer => Sys2Proof.Machine.execOfferAnswer s
  | .go die => Sys2Proof.Machine.execGo die s
  | .drop die => Sys2Proof.Machine.execDrop die s
  | .launchComplete seq => Sys2Proof.Machine.execLaunchComplete seq s
  | .place die => Sys2Proof.Machine.execPlace die s
  | .taskStart at_ => Sys2Proof.Machine.execTaskStart at_ s
  | .taskEnd at_ => Sys2Proof.Machine.execTaskEnd at_ s
  | .engineCommandStart ag => Sys2Proof.Machine.execEngineCommandStart ag s
  | .progressMark ag => Sys2Proof.Machine.execProgressMark ag s
  | .accessComplete at_ id => Sys2Proof.Machine.execAccessComplete at_ id s
  | .vaultWaitComplete ag => Sys2Proof.Machine.execVaultWaitComplete ag s
  | .streamWaitComplete at_ => Sys2Proof.Machine.execStreamWaitComplete at_ s
  | .cpytComplete at_ reg => Sys2Proof.Machine.execCpytComplete at_ reg s
  | .transferComplete ag id => Sys2Proof.Machine.execTransferComplete ag id s
  | .windowWriteAck core id ok => Sys2Proof.Machine.execWindowWriteAck core id ok s
  | .cellarFetchComplete core tag => Sys2Proof.Machine.execCellarFetchComplete core tag s
  | .planeExpansionComplete core plane => Sys2Proof.Machine.execPlaneExpansionComplete core plane s
  | .churnDeadline core id => Sys2Proof.Machine.execChurnDeadline core id s
  | .arrayPass core => Sys2Proof.Machine.execArrayPass core s
  | .passComplete core id => Sys2Proof.Machine.execPassComplete core id s
  | .bankExchangeComplete core => Sys2Proof.Machine.execBankExchangeComplete core s
  | .doorbell core => Sys2Proof.Machine.execDoorbell core s
  | .tqrdWrite v => Sys2Proof.Machine.execTqrdWrite v s
  | .mqrdWrite v => Sys2Proof.Machine.execMqrdWrite v s
  | .supervisorWatchdogExpiry => Sys2Proof.Machine.execSupervisorWatchdogExpiry s
  | .lockstepMismatch pair => Sys2Proof.Machine.execLockstepMismatch pair s
  | .supswap => Sys2Proof.Machine.execSupswap s
  | .dutyWrite v => Sys2Proof.Machine.execDutyWrite v s
  | .fresRetry die idx => Sys2Proof.Machine.execFresRetry die idx s
  | .fresFail05 die idx => Sys2Proof.Machine.execFresFail05 die idx s
  | .fresFail06 die idx => Sys2Proof.Machine.execFresFail06 die idx s
  | .tlbfill die va asid level leaf => Sys2Proof.Machine.execTlbfill die va asid level leaf s
  | .invalAll die => Sys2Proof.Machine.execInvalAll die s
  | .invalAsid die asid => Sys2Proof.Machine.execInvalAsid die asid s
  | .invalPage die asid => Sys2Proof.Machine.execInvalPage die asid s
  | .invalComplete die => Sys2Proof.Machine.execInvalComplete die s
  | .inboundAccess die src key req => Sys2Proof.Machine.execInboundAccess die src key req s
  | .ingressNotify die q src key tail nonce tag => Sys2Proof.Machine.execIngressNotify die q src key tail nonce tag s
  | .icbHeadWrite at_ q v => Sys2Proof.Machine.execIcbHeadWrite at_ q v s
  | .icbErrSet at_ q => Sys2Proof.Machine.execIcbErrSet at_ q s
  | .icbErrClear at_ q => Sys2Proof.Machine.execIcbErrClear at_ q s
  | .icbSetRun die q launch => Sys2Proof.Machine.execIcbSetRun die q launch s
  | .icbSetStopped die q => Sys2Proof.Machine.execIcbSetStopped die q s
  | .iauthKeyWrite die q key => Sys2Proof.Machine.execIauthKeyWrite die q key s
  | .fabricReply station tag gen ok data => Sys2Proof.Machine.execFabricReply station tag gen ok data s
  | .requestTimeout station tag => Sys2Proof.Machine.execRequestTimeout station tag s
  | .slotRetry station tag busy => Sys2Proof.Machine.execSlotRetry station tag busy s
  | .slotAgeDiscard station tag => Sys2Proof.Machine.execSlotAgeDiscard station tag s
  | .combiningWindowClose id => Sys2Proof.Machine.execCombiningWindowClose id s
  | .linkTagFailure link => Sys2Proof.Machine.execLinkTagFailure link s
  | .linkEpochFlip link => Sys2Proof.Machine.execLinkEpochFlip link s
  | .linkKeyWear link groups => Sys2Proof.Machine.execLinkKeyWear link groups s
  | .countsClear die => Sys2Proof.Machine.execCountsClear die s
  | .partWrite p v => Sys2Proof.Machine.execPartWrite p v s
  | .pvallotWrite v => Sys2Proof.Machine.execPvallotWrite v s
  | .bypassWrite v => Sys2Proof.Machine.execBypassWrite v s
  | .externalRingWrite addr data => Sys2Proof.Machine.execExternalRingWrite addr data s
  | .watchdogExpiry ag => Sys2Proof.Machine.execWatchdogExpiry ag s
  | .parityAlarm core src => Sys2Proof.Machine.execParityAlarm core src s
  | .protocolAlarm core src => Sys2Proof.Machine.execProtocolAlarm core src s
  | .engineReset core kind => Sys2Proof.Machine.execEngineReset core kind s
  | .rollingReset core kind => Sys2Proof.Machine.execRollingReset core kind s
  | .coreReset core => Sys2Proof.Machine.execCoreReset core s
  | .coreResetTimeout core => Sys2Proof.Machine.execCoreResetTimeout core s
  | .dieReset die => Sys2Proof.Machine.execDieReset die s
  | .dieResetTimeout die => Sys2Proof.Machine.execDieResetTimeout die s
  | .packageReset => Sys2Proof.Machine.execPackageReset s
  | .partitionReset p => Sys2Proof.Machine.execPartitionReset p s
  | .preemptRequest at_ => Sys2Proof.Machine.execPreemptRequest at_ s
  | .preemptionComplete at_ => Sys2Proof.Machine.execPreemptionComplete at_ s
  | .slotAbort at_ afail => Sys2Proof.Machine.execSlotAbort at_ afail s
  | .pstepRequest level => Sys2Proof.Machine.execPstepRequest level s
  | .powerMessage level nonce tag reserved => Sys2Proof.Machine.execPowerMessage level nonce tag reserved s
  | .fwreqWrite level => Sys2Proof.Machine.execFwreqWrite level s
  | .ladderRaise => Sys2Proof.Machine.execLadderRaise s
  | .ladderRelease => Sys2Proof.Machine.execLadderRelease s
  | .depthWrite depth => Sys2Proof.Machine.execDepthWrite depth s
  | .bucketWrite core cls v => Sys2Proof.Machine.execBucketWrite core cls v s
  | .sensorSample die raws => Sys2Proof.Machine.execSensorSample die raws s
  | .sensWrite die xi v => Sys2Proof.Machine.execSensWrite die xi v s
  | .thermalDepthRaise die => Sys2Proof.Machine.execThermalDepthRaise die s
  | .thermalDepthFall die => Sys2Proof.Machine.execThermalDepthFall die s
  | .pfail cause => Sys2Proof.Machine.execPfail cause s
  | .coldReset boot => Sys2Proof.Machine.execColdReset boot s
  | .liveMaskWrite which v => Sys2Proof.Machine.execLiveMaskWrite which v s
  | .docupd v image => Sys2Proof.Machine.execDocupd v image s
  | .vatrep die v => Sys2Proof.Machine.execVatrep die v s
  | .vatrepComplete die ok => Sys2Proof.Machine.execVatrepComplete die ok s
  | .getVersion => Sys2Proof.Machine.execGetVersion s
  | .getCapabilities => Sys2Proof.Machine.execGetCapabilities s
  | .negotiateAlgorithms => Sys2Proof.Machine.execNegotiateAlgorithms s
  | .getDigests => Sys2Proof.Machine.execGetDigests s
  | .getCertificate => Sys2Proof.Machine.execGetCertificate s
  | .challenge nonce => Sys2Proof.Machine.execChallenge nonce s
  | .getMeasurements index => Sys2Proof.Machine.execGetMeasurements index s
  | .registerWrite pa size v => Sys2Proof.Machine.execRegisterWrite pa size v s
  | .supervisorWatchdogRefresh => Sys2Proof.Machine.execSupervisorWatchdogRefresh s
  | .journalCommit pa v => Sys2Proof.Machine.execJournalCommit pa v s
  | .takeoverComplete => Sys2Proof.Machine.execTakeoverComplete s
  | .selfTestComplete pair => Sys2Proof.Machine.execSelfTestComplete pair s
  | .coreResetComplete core => Sys2Proof.Machine.execCoreResetComplete core s
  | .dieResetComplete die => Sys2Proof.Machine.execDieResetComplete die s
  | .docupdComplete => Sys2Proof.Machine.execDocupdComplete s
  | .softError addr => Sys2Proof.Machine.execSoftError addr s
  | .stepLimitExpiry => Sys2Proof.Machine.execStepLimitExpiry s

end Sys2Proof.Machine
end

