-- ==== Sys2Proof/Machine/Turn.lean ====
section
/-! DEFINITION. The turn of an agent and of admissions (01 R27, 09 R207, 13 R273, R284, 14 R305, R322, 17 R380): what it runs, which slot of an
engine and which context of the SCU comes first. -/

namespace Sys2Proof

/-- The same unit at another slot. -/
def AgentId.at_ (a : AgentId) (slot : Nat) : AgentId := { a with slot := slot }
/-- The docent's context as an agent. -/
def AgentId.docent (a : AgentId) : AgentId := a.at_ 4

end Sys2Proof

namespace Sys2Proof.Machine

/-! ### What would issue -/

/-- Runs the instruction an agent has fetched: an uncorrectable word in it traps before any effect (03 R72). -/
def State.runFetched (s : State) (i : Instr) : Res :=
  match s.fetchBad s.agent with
  | some v => .next (s.trapAgent s.agent 0x08 v)
  | none => exec i s

/-- Whether an outcome is that an agent's instruction has issued or trapped, and not that it waits: an engine counts what it issues, and an SCU
context changes, or a docent's trap goes to the Curator (13 R280); a blocking instruction issues when it begins to wait (06 R133), and while it waits it does not issue again. -/
def State.acted (s s' : State) (a : AgentId) : Bool :=
  s'.task a.ctx != s.task a.ctx
    || (if a.kind = .scu then
          s'.cur.tqwr != s.cur.tqwr || s'.cur.held != s.cur.held || s'.cur.mqwr != s.cur.mqwr
            || (if (s'.ctx a.ctx).blocked then !(s.ctx a.ctx).blocked else s'.ctx a.ctx != s.ctx a.ctx)
        else (s'.stream a).issues != (s.stream a).issues)

/-- Whether an agent stands at an instruction, and not at the start or the end of a command. -/
def State.atInstr (s : State) (a : AgentId) : Bool := a.kind == .scu || ((s.stream a).active && !(s.stream a).atEnd)

/-- Whether an agent stands at an instruction that would issue or trap now, its current bucket aside. -/
def State.wouldAct (s : State) (a : AgentId) : Bool :=
  s.atInstr a
    && (match s.nextOf a with
        | some i => (match ({ s with agent := a } : State).runFetched i with | .next s' => s.acted s' a | _ => false)
        | none => false)

/-- The class of a slot's task. -/
def State.classOf (s : State) (c : CtxId) : Nat :=
  match s.task c with
  | some t => t.cls
  | none => 0

/-- The place among a core's rotations of an agent's: an engine has one for each class, and the SCU one (01 R27). -/
def State.rotationAt (s : State) (a : AgentId) : Nat := 4 * a.kind.num + (if a.kind = .scu then 0 else s.classOf a.ctx % 4)

/-- The task slots in the order a unit serves them, from the one after the slot it issued from last (01 R27). -/
def State.rotation (s : State) (a : AgentId) : List Nat :=
  let last := (s.core a.coreId).served.getD (s.rotationAt a) 3
  (List.range 4).map (fun i => (last + 1 + i) % 4)

/-! ### Engines (09 R207, 14 R322, 17 R380) -/

/-- Whether another slot comes before an agent's own: the one that the engine's bucket holds, until its instruction has issued (17 R380), or,
where it holds neither, one whose instruction would issue and that has a higher class, or the same and an earlier turn. -/
def State.slotAhead (s : State) (a : AgentId) : Bool :=
  let cls (x : Nat) : Nat := s.classOf (a.at_ x).ctx
  let sooner := (s.rotation a).takeWhile (fun x => x != a.slot)
  s.heldByOther a
    || (!(s.core a.coreId).bucketHeld.contains (a.kind.num, a.slot)
        && (s.rotation a).any (fun x =>
          x != a.slot && (decide (cls a.slot < cls x) || (cls x == cls a.slot && sooner.contains x)) && s.wouldAct (a.at_ x)))

/-- Whether the ME's bucket holds a pass, which then issues before any instruction of the ME (17 R380). -/
def State.passFirst (s : State) (a : AgentId) : Bool :=
  a.kind == .me && (s.core a.coreId).passHeld.any (fun x => !((s.core a.coreId).waiting x).isEmpty)

/-! ### The SCU (01 R27, 06 R161, 13 R273) -/

/-- Whether a task context would issue now: one that has not forfeited its turn by a YIELD. -/
def State.ctxActs (s : State) (a : AgentId) (x : Nat) : Bool := !(s.ctx (a.at_ x).ctx).yielded && s.wouldAct (a.at_ x)

/-- Whether the docent's share of the SCU is due: 1 cycle in every 64, 32, 16, 8 or 4 (05 R121). -/
def State.shareDue (s : State) (c : CoreId) : Bool :=
  let k := s.core c
  decide (k.docLast + 64 / 2 ^ k.dshare ≤ k.unitCycles 0 s.cycle)

/-- Whether another context comes before an agent's own in this SCU cycle: before the docent's any task context, but on the docent's share; before
a task's one that is sooner in turn, or the docent on its share. -/
def State.ctxAhead (s : State) (a : AgentId) : Bool :=
  if a.slot = 4 then !s.shareDue a.coreId && (s.rotation a).any (s.ctxActs a)
  else
    ((s.rotation a).takeWhile (fun x => x != a.slot)).any (s.ctxActs a) || (s.shareDue a.coreId && s.ctxActs a 4)

/-- The contexts that forfeit a turn by a task context's issue: those before it in the rotation that have yielded, and the docent where it has
yielded on its share (06 R161). -/
def State.passedOver (s : State) (a : AgentId) : List Nat :=
  if a.kind = .scu ∧ a.slot < 4 then
    ((s.rotation a).takeWhile (fun x => x != a.slot)).filter (fun x => (s.ctx (a.at_ x).ctx).yielded)
      ++ (if s.shareDue a.coreId && (s.ctx a.docent.ctx).yielded && s.wouldAct a.docent then [4] else [])
  else []

/-! ### Traps in one SCU cycle (13 R284) -/

/-- Whether an outcome froze a context's task. -/
def State.froze (s s' : State) (c : CtxId) : Bool :=
  let frozen (s : State) : Bool := match s.task c with | some t => t.frozen | none => false
  frozen s' && !frozen s

/-- Whether two reference cycles lie in one SCU cycle of a core. -/
def State.sameScuCycle (s : State) (c : CoreId) (t u : Nat) : Bool :=
  let k := s.core c
  k.unitCycles 0 t == k.unitCycles 0 u

/-- Whether another instruction takes an agent's unit before its own: another context's or slot's, or the pass that the ME's bucket holds. -/
def State.turnAhead (s : State) (a : AgentId) : Bool :=
  if a.kind = .scu then (s.ctx a.ctx).yielded || s.ctxAhead a else s.passFirst a || s.slotAhead a

/-- The cause for which an agent's instruction would freeze its task in the present SCU cycle, if its unit serves it now and its bucket does not
hold it. -/
def State.trapsNow (s : State) (a : AgentId) : Option Nat :=
  let k := s.core a.coreId
  if s.sameScuCycle a.coreId (s.freeCycle a (k.unitTime 0 (k.unitCycles 0 s.cycle))) s.cycle && s.atInstr a && !s.turnAhead a then
    match s.nextOf a with
    | some i =>
      (match s.afford a (({ s with agent := a } : State).runFetched i) with
       | .next s' => if s.froze s' a.ctx then (s'.task a.ctx).map Task.frozenCause else none
       | _ => none)
    | none => none
  else none

/-- The agents of a slot in the order in which their traps are delivered. -/
def CtxId.agents (c : CtxId) : List AgentId := [AgentKind.scu, .ve, .me, .ce, .xe].map c.agent

/-- Whether another agent's trap comes first in this SCU cycle: of the same slot in the order SCU, VE, ME, CE, XE, and of a lower slot; a unit
serves one agent at a time. -/
def State.trapBefore (s : State) (a : AgentId) : Bool :=
  (List.range 4).any (fun x => (CtxId.agents (a.at_ x).ctx).any (fun b =>
    b.kind != a.kind && (decide (x < a.slot) || (x == a.slot && decide (b.kind.num < a.kind.num))) && (s.trapsNow b).isSome))

/-- Records in the report of a slot's first trap the traps that its other agents would have raised in the same SCU cycle; `s` is the state
before it. -/
def State.noteTraps (s : State) (a : AgentId) (u : State) : State :=
  (CtxId.agents a.ctx).foldl (fun u b =>
    if b.kind = a.kind then u
    else match s.trapsNow b with
    | some cause => u.recordLater b.ctx b.kind.num cause
    | none => u) u

/-- Whether a task that froze in this SCU cycle bars a trap of an agent from it: its own, by a later agent in the order, or one of a higher slot
that the docent has received. -/
def State.trapPast (s : State) (a : AgentId) : Bool :=
  let d := s.ctx a.docent.ctx
  (List.range 4).any (fun x =>
    match s.task (a.at_ x).ctx with
    | some t =>
      t.frozen && decide (t.frozenSrc ≤ 4) && s.sameScuCycle a.coreId t.frozenAt s.cycle
        && ((x == a.slot && decide (a.kind.num < t.frozenSrc)) || (decide (a.slot < x) && d.slotn == x && !d.wopen))
    | none => false)

/-- The agent whose trap an outcome brings a task: its first, or one recorded later. -/
def State.raised (s s' : State) (c : CtxId) : Option AgentId :=
  match s.task c, s'.task c with
  | some t, some t' =>
    let src := if !t.frozen && t'.frozen then t'.frozenSrc
      else if t.frozen && t'.frozen && decide (t.later.length < t'.later.length) then (t'.later.getLastD 0) / 256
      else 5
    match src with
    | 0 => some (c.agent .scu)
    | 1 => some (c.agent .ve)
    | 2 => some (c.agent .me)
    | 3 => some (c.agent .ce)
    | 4 => some (c.agent .xe)
    | _ => none
  | _, _ => none

/-- An event's outcome, its traps in the order of 13 R284: where one of them comes too early or too late in its SCU cycle, the event comes to
pass in another; and what the other agents would have raised is recorded. -/
def State.inOrder (s s' : State) : State :=
  let l := (Table.keys s'.tasks).filterMap (s.raised s')
  if l.any (fun a => s.trapPast a || (s.froze s' a.ctx && s.trapBefore a)) then s
  else l.foldl (fun u a => if s.froze s' a.ctx then s.noteTraps a u else u) s'

/-! ### An agent's turn -/

/-- The unit of an agent has issued: it may issue again one of its cycles later, the slots after this one come next, contexts that were passed
over have forfeited their turn, and the docent has had its share if that was due, or has forfeited it. -/
def State.took (s : State) (a : AgentId) (passed : List Nat) : State :=
  let d := (s.core a.coreId).divisorOf a.kind a.slot
  let share := (a.slot == 4 || passed.contains 4) && s.shareDue a.coreId
  let place := s.rotationAt a
  let s := passed.foldl (fun s x => s.modCtx (a.at_ x).ctx (fun c => { c with yielded := false })) s
  s.modCore a.coreId (fun k =>
    { k with nextIssue := setNth k.nextIssue a.kind.num (s.cycle + d),
             served := if a.slot < 4 then setNth k.served place a.slot else k.served,
             docLast := if share then k.unitCycles 0 s.cycle else k.docLast })

/-- A context whose issued access has ended stands at a boundary: the trap that waited for it is delivered (13 R282). -/
def State.boundaryTrap (s : State) (c : CtxId) : State :=
  match (s.ctx c).pend with
  | some p => if (s.ctx c).parked = .no then (s.modCtx c (fun x => { x with pend := none })).deliver p.of p.src p.cause p.val else s
  | none => s

/-- Runs an instruction of an agent: one that waits does so at any time; one that issues does so if no other comes before it and its bucket does
not hold it, and takes the unit's cycle, unless another trap comes first. -/
def State.issue (s : State) (a : AgentId) (i : Instr) (waits : Bool) : Res :=
  match s.runFetched i with
  | .next s' =>
    if !s.acted s' a then .next s'
    else if waits then .next s
    else
      match s.afford a (.next s') with
      | .next u =>
        if !s.acted u a then .next u
        else if !s.froze u a.ctx then .next ((u.took a (s.passedOver a)).boundaryTrap a.ctx)
        else if s.trapBefore a || s.trapPast a then .next s
        else .next ((s.noteTraps a u).took a (s.passedOver a))
      | r => r
  | r => r

/-- The SCU takes its divisor of 17 R376 at an instruction boundary. -/
def State.scuBoundary (s : State) (a : AgentId) : State :=
  let k := s.core a.coreId
  if k.clkeff.getD 0 1 = ladderDivisor .scu (s.depthOf a.die) (k.clkdiv.getD 0 1) then s else s.takeDivisor a

/-- The turn that a context has forfeited by a YIELD: it passes to any other context that would issue, and else the cycle passes unused. -/
def State.yieldTurn (s : State) (a : AgentId) : State :=
  if (List.range 5).any (fun x => x != a.slot && s.ctxActs a x) then s
  else (s.modCtx a.ctx (fun x => { x with yielded := false })).took a []

/-- The turn of an SCU context: it issues in its turn of the rotation, and one that waits tries again at any time; after a YIELD its turn is
forfeited. -/
def State.takeScu (s : State) (a : AgentId) : Res :=
  if (s.ctx a.ctx).yielded then .next (s.yieldTurn a)
  else
    let s := s.scuBoundary a
    match s.nextOf a with
    | some i => s.issue a i (s.ctxAhead a)
    | none => .next s

/-- The turn of an engine's slot: it starts or ends a command, issues when it is the slot that the engine selects, and while it waits tries
again at any time. -/
def State.takeEngine (s : State) (a : AgentId) : Res :=
  match s.nextOf a with
  | none => .next s
  | some i =>
    if !s.atInstr a then exec i s
    else s.issue a i (s.turnAhead a)

/-- The turn of an agent, in a cycle of its unit. -/
def State.takeTurn (s : State) (a : AgentId) : Res :=
  let s : State := { s with agent := a }
  if a.kind = .scu then s.takeScu a else s.takeEngine a

/-- The turn of admissions: a queue is chosen, or the queue whose turn it is executes its next packet; while its offer is out nothing
else happens (14 R305, R308). -/
def State.takeAdmissions (s : State) : Res :=
  if s.mode ≠ .running then .next s
  else match s.turnOf with
  | none => exec .choose s
  | some (q, _) =>
    let s := s.resumeSkip q
    if (s.queue q).offer.isSome then .next s
    else if (s.queue q).state ≠ 1 || (s.queue q).wait != .no then .next (s.endTurn q)
    else
      match s.fetchPacket q with
      | some i => exec i s
      | none => .next (s.endTurn q)

/-- Whether an event acts on a module in a state: all of them while it runs; in reset, attestation, power fail and power-on; without power,
power-on (17 R386, 18 R388). -/
def eventActs (m : Module) (i : Instr) : Bool :=
  match m, i with
  | .running, _ => true
  | _, .coldReset _ => true
  | .reset, .pfail _ | .reset, .getVersion | .reset, .getCapabilities | .reset, .negotiateAlgorithms | .reset, .getDigests => true
  | .reset, .getCertificate | .reset, .challenge _ | .reset, .getMeasurements _ => true
  | _, _ => false

/-- The agent whose turn an event is: a wait at the vault that completes is one of its agent's instructions, in its unit's cycles and order. -/
def Instr.turnOf (i : Instr) : Option AgentId :=
  match i with
  | .vaultWaitComplete a => some a
  | _ => none

/-- The turn of an event. -/
def State.takeEvent (s : State) (i : Instr) : Res :=
  if !eventActs s.mode i then .next s
  else
    match Instr.turnOf i with
    | some a => if s.vaultBlocked a then s.takeTurn a else .next s
    | none =>
      match exec i s with
      | .next s' => .next (s.inOrder s')
      | r => r

end Sys2Proof.Machine
end

