-- ==== Sys2Proof/Machine/Step.lean ====
section
/-! DEFINITION. One step of the package (log entry 4): the agenda's next turn, or the standing turn when the agenda is empty; and how the
host places an instruction where the next step fetches it (log entry 9). -/

namespace Sys2Proof.Machine

/-- Whether a row is an instruction word or packet, which only an agent or admissions runs. -/
def Instr.coded (i : Instr) : Bool :=
  wordBits i != 0 || !(encodePacket i).isEmpty || (match i with | .illegalInstruction _ => true | .illegalPacket _ => true | _ => false)

/-- Whether the package has an agent (01 R10-R13). -/
def AgentId.exists_ (a : AgentId) : Bool :=
  decide (a.die < 12) && decide (a.core < 64) && decide (a.slot < (if a.kind = .scu then 5 else 4))

/-- Takes a move. -/
def State.take (s : State) (m : Move) : Host.Outcome State Fault Refusal :=
  match m with
  | .agent a => if AgentId.exists_ a then s.takeTurn a else .fault .noSuchUnit
  | .admissions => s.takeAdmissions
  | .event i => if Instr.coded i then .refused .notAnEvent else s.takeEvent i
  | .curator x => .next (s.takeCurator x)
  | .perform id part => .next (s.performOne id part)

/-- The turn that is next: the agenda's first, or the standing turn a cycle later. -/
def State.nextTurn (s : State) : Turn :=
  match s.agenda with
  | [] => ⟨1, s.turn, {}⟩
  | t :: _ => t

/-- The agent of a move, if it is one's turn. -/
def Move.agent? (m : Move) : Option AgentId :=
  match m with
  | .agent a => some a
  | .event i => Instr.turnOf i
  | .admissions => none
  | .curator _ => none
  | .perform _ _ => none

/-- When a turn is taken: after its cycles, and an agent's in its unit's next cycle from then on (17 R377). -/
def State.turnTime (s : State) (t : Turn) : Nat :=
  match Move.agent? t.what with
  | some a => s.freeCycle a (s.cycle + t.dt)
  | none => s.cycle + t.dt

/-- The agenda when something comes to pass before its first turn, which is left with the cycles it then still has. -/
def State.postponed (s : State) (t : Nat) : List Turn :=
  match s.agenda with
  | [] => []
  | x :: rest => { x with dt := s.cycle + x.dt - t } :: rest

/-- One step: what is due before the next turn, or the turn (log entry 4). -/
def step (s : State) : Host.Outcome State Fault Refusal :=
  let t := s.nextTurn
  let at_ := s.turnTime t
  match s.cut at_ with
  | some (x, e) =>
    let s' := { s with agenda := s.postponed x, leeway := {} }.elapse (x - s.cycle)
    match e with
    | some i => i.run s'
    | none => .next s'
  | none => ({ s with agenda := s.agenda.drop 1, leeway := t.leeway }.elapse (at_ - s.cycle)).take t.what

/-! ### Placing an instruction (log entry 9) -/

/-- The task whose streams hold a placed instruction: on die 0, core 0, slot 0, with every tile. -/
def placedTask : Task where
  launch := 0
  node := 0
  point := []
  entry := 0
  arg := 0
  cls := 0
  asid := 0
  part := 0
  depth := 1
  tiles := 16
  image := ⟨0, 0, 0, 0⟩
  skim := none
  slotLevels := []
  bindings := []
  allot := []
  started := true
  loadFail := none
  frozen := false
  inHandler := false
  frozenSrc := 0
  frozenCause := 0
  frozenAt := 0
  later := []
  laterCount := 0
  abandoned := false
  preempting := false
  preempted := false
  parked := false
  unreplayable := false
  set := 0
  p := Vector.replicate 5 0

/-- The record under which a placed engine word runs: one pass of one block. -/
def placedRec (k : AgentKind) : Rec := { recOf [] 0 with bcnt := 1, engine := k.num - 1, mlvl := 7 }

/-- The slot of a placed instruction. -/
def placedCtx : CtxId := ⟨0, 0, 0⟩

/-- Places a word at I-space halfword `i` of core 0 of die 0, with the task that runs it. -/
def State.placeWord (s : State) (i w : Nat) : State :=
  (s.storeAt (ispaceAt ⟨0, 0⟩ (2 * i)) (natLe 4 w)).setTask placedCtx (some placedTask)

/-- Places an SCU word at the entry of slot 0. -/
def State.placeScu (s : State) (w : Nat) : State :=
  { (s.placeWord 0 w).setCtx placedCtx {} with agenda := [], turn := .agent (placedCtx.agent .scu) }

/-- Places an engine's word in the body of slot 0's current command, or a BLK at its block start. -/
def State.placeEngine (s : State) (k : AgentKind) (w : Nat) (blk : Bool) : State :=
  let r := placedRec k
  let x : Stream := ({ queue := [r], appended := 1, active := true } : Stream).beginPass r (List.replicate 6 0)
  let y : Stream := if blk then x else { x with epc := 2, inBody := true, bodyStart := 2, bodyLen := 2, repsLeft := 1 }
  { (s.placeWord (if blk then 0 else 2) w).setStream (placedCtx.agent k) y with agenda := [], turn := .agent (placedCtx.agent k) }

/-- Places a packet at the head of queue 0, whose turn it is. -/
def State.placePacket (s : State) (w : Nat) : State :=
  let n := packetWords (w % 2 ^ 32)
  let s := (s.storeAt (admAt 0) (natLe 40 w)).setQueue 0 { state := 1, tail := BitVec.ofNat 32 n }
  { s with turnOf := some (0, 0), agenda := [], turn := .admissions }

/-- Whether a word decodes in a stream. -/
def decodesIn (k : AgentKind) (w : Nat) : Bool :=
  match decode32 (AgentMap k) w with
  | .ok _ => true
  | .error _ => false

/-- Whether a packet decodes. -/
def decodesPacket (w : Nat) : Bool :=
  match decodePacket ((List.range 10).map (fun k => fld w (32 * k) 32)) with
  | .ok _ => true
  | .error _ => false

/-- Whether a word is a BLK. -/
def isBlk (k : AgentKind) (w : Nat) : Bool :=
  match decode32 (AgentMap k) w with
  | .ok (.blk _ _) => true
  | _ => false

/-- The state with an instruction stored where step fetches its next instruction: in the stream decodeTableWord reads it from, on a module that
runs. -/
def State.withFetchWord (s : State) (nbits w : Nat) : State :=
  let s : State := { s with mode := .running }
  let v := w % 2 ^ 32
  if nbits ≤ 16 then s.placeScu (w % 2 ^ 16)
  else if decodesIn .scu v then s.placeScu v
  else
    match engineKinds.find? (fun k => decodesIn k v) with
    | some k => s.placeEngine k v (isBlk k v)
    | none => if decodesPacket w then s.placePacket w else s.placeScu v

end Sys2Proof.Machine
end

