-- ==== Sys2Proof/Safety.lean ====
section
/-! DEFINITION. The terms claims are stated in: states in good form, when an instruction runs, and what it leaves unchanged. -/

namespace Sys2Proof.Machine

/-! ### Good form -/

/-- A state whose storage is in canonical form: memory, and the vault words. -/
def State.wf (s : State) : Bool := Memory.wf s.mem && Sparse.wf (0 : Word) s.vault

/-- An outcome that goes on. -/
def goesOn (r : Host.Outcome State Fault Refusal) : Prop := ∃ t, r = .next t

/-! ### SCU instructions -/

/-- No write's order is open, and the turn uses none of the freedom that 04 R74-R90 leave (log entry 7): memory is what has been written. -/
def State.strict (s : State) : Prop := s.order = {} ∧ s.leeway = {}

/-- A byte that an agent's weak read at a place may return (04 R74, R90): that of its own newest write that is still to be performed; else the byte that
stands there, or the one that stood there before some of the newest writes, none of which it need observe. -/
def State.mayRead (s : State) (a : AgentId) (h : Nat) (b : Byte) : Prop :=
  match s.order.late.reverse.find? (fun w => w.by_ == some a && w.touches h) with
  | some w => w.byteAt h = some b
  | none => ∃ k, b = s.rdWithout ((s.unseen a [h]).take k) h

/-- An SCU instruction under guard `gd` that touches the registers `touch` runs: its guard is true (05 R101-R102), and none of these
registers is the token of a pending copy (06 R157), or of one that has ended and was not read since (04 R93). -/
def State.runs (s : State) (gd : Guard) (touch : List Nat) : Prop :=
  (s.ctx s.here).guardOn gd = true ∧ (∀ x ∈ (s.ctx s.here).copies, x.reg ≠ 0 → x.reg ∉ touch) ∧ ∀ r ∈ (s.ctx s.here).unread, r ∉ touch

/-- What an SCU instruction leaves of the contexts and cores: every other context and core, and of its own core all but bucket 0, which
pays 1, unless the instruction has paid when it began to wait (17 R379). -/
def State.ScuPaid (s t : State) : Prop :=
  (∀ c, c ≠ s.here → t.ctx c = s.ctx c) ∧ (∀ c, c ≠ s.here.coreId → t.core c = s.core c)
    ∧ t.core s.here.coreId = { s.core s.here.coreId with buckets := (t.core s.here.coreId).buckets }
    ∧ ∀ i, i < 5 → (t.core s.here.coreId).buckets.getD i {}
        = if i = 0 ∧ (s.ctx s.here).blocked = false then ((s.core s.here.coreId).buckets.getD 0 {}).spend 1 else (s.core s.here.coreId).buckets.getD i {}

/-- An SCU instruction that acts on its context only: the rest of the state, with every byte of memory, is unchanged. -/
def State.ScuOnly (s t : State) : Prop :=
  { t with ctxs := s.ctxs, cores := s.cores } = s ∧ (∀ a, t.rd a = s.rd a) ∧ s.ScuPaid t

/-- An SCU instruction that stores: beside its context, only bytes of memory at the addresses `as` change. -/
def State.ScuStored (s t : State) (as : List Nat) : Prop :=
  { t with ctxs := s.ctxs, cores := s.cores, mem := s.mem } = s ∧ (∀ a, a ∉ as → t.rd a = s.rd a) ∧ s.ScuPaid t

/-- Context `y` is `x` after an instruction of `size` halfwords that wrote `v` to g[d] and nothing else; g0 stays 0 (06 R129). -/
def Ctx.WroteReg (x y : Ctx) (d : Nat) (v : Word) (size : Nat) : Prop :=
  (∀ i, y.reg i = if i = d ∧ d ≠ 0 then v else x.reg i) ∧ { x.complete size with g := y.g } = y

/-- Context `y` is `x` after an instruction of two halfwords that left the condition registers as `f` says, and changed nothing else. -/
def Ctx.WroteCond (x y : Ctx) (f : Nat → Bool) : Prop :=
  (∀ i, i < 16 → y.cond i = f i) ∧ { x.complete 2 with k := y.k } = y

/-- No byte of a list lies in an uncorrectable ECC word. -/
def State.Sound (s : State) (as : List Nat) : Prop := ∀ a ∈ as, a / 8 * 8 ∉ s.ecc

/-! ### Engine instructions -/

/-- The running agent's stream stands in a command, under record `r`, and waits for no translation and no window load (03 R60). -/
def State.engineRuns (s : State) (r : Rec) : Prop :=
  (s.stream s.agent).current = some r ∧ (s.stream s.agent).wait ≠ .parked ∧ s.windowHeld s.agent = false

/-- The value of the row a VE register names. -/
def State.row (s : State) (n : Nat) : Nat := s.rdNat (s.rowAt s.agent.ctx n) 512

/-- Nothing holds a VE operation that reads and writes these rows: no ME owns its window's tile and no exchange holds it, no access
pending holds the rows (07 R167, 08 R190), and no write's order is open (log entry 7). -/
def State.rowsQuiet (s : State) (reads writes : List Nat) : Prop :=
  let v := s.ve s.agent.ctx
  s.order = {} ∧ s.owned s.agent.ctx v.tile = false ∧ s.exchanging s.agent.ctx v.tile = false
    ∧ (∀ n ∈ writes, v.writeWaits v.tile (v.rowNum n) = false)
    ∧ ∀ n ∈ reads, v.readWaits v.tile (v.rowNum n) = false ∧ ∀ x ∈ v.pend, x.lands v.tile (v.rowNum n) = false

/-- A VE operation may read and write these rows: the tile of its window is the task's, nothing holds it, and no uncorrectable word lies in
them (07 R166-R168). -/
def State.rowsOpen (s : State) (reads writes : List Nat) : Prop :=
  (s.ve s.agent.ctx).tile < s.tileCount s.agent.ctx ∧ s.rowsQuiet reads writes
    ∧ ∀ n ∈ reads ++ writes, s.Sound ((List.range 512).map (s.rowAt s.agent.ctx n + ·))

/-- State `u` is `s` after `n` elements of `w` bits of row `d` were written, element `j` where the guard `g` is on for lane `j` of width
`gw`; no other bit of the row, no other byte, and nothing but memory and VE states has changed. -/
def State.RowWritten (s u : State) (g : BitVec 256) (d w gw n : Nat) (val : Nat → Nat) : Prop :=
  (∀ j, j < n → lane (u.row d) w j = if laneOn g gw j then val j % 2 ^ w else lane (s.row d) w j)
    ∧ (∀ i, n * w ≤ i → (u.row d).testBit i = (s.row d).testBit i)
    ∧ (∀ a, (a < s.rowAt s.agent.ctx d ∨ s.rowAt s.agent.ctx d + 512 ≤ a) → u.rd a = s.rd a)
    ∧ { u with mem := s.mem, ves := s.ves } = s ∧ ∀ x, x ≠ s.agent.ctx → u.ve x = s.ve x

/-- The flags of the elements that are on. -/
def flagsOn (g : BitVec 256) (gw n : Nat) (flags : Nat → Nat) : Nat :=
  orFlags ((List.range n).map (fun j => if laneOn g gw j then flags j else 0))

/-- A VE operation completes with element values and flags: the row is written, the flags stick, and an enabled one traps after the
instruction has issued (08 R204). `v` is the VE state after its draws. -/
def State.LanesDone (s : State) (i : Instr) (gd : Guard) (d w gw n cost : Nat) (v : Ve) (val : Nat → Nat × Nat) : Prop :=
  let g := (s.ve s.agent.ctx).guard gd
  let flags := flagsOn g gw n (fun j => (val j).2)
  ∃ u, exec i s = .next (if (s.ve s.agent.ctx).cfg.trapping flags then (u.issued cost).trapAgent s.agent 0x0C (zx flags) else u.issued cost)
    ∧ s.RowWritten u g d w gw n (fun j => (val j).1) ∧ u.ve s.agent.ctx = { v with cfg := (s.ve s.agent.ctx).cfg.raise flags }

end Sys2Proof.Machine
end

