-- ==== Sys2Proof/Certificates/Slice0/Obligations.lean ====
section
/-! DEFINITION. The statements for the provers: what instructions do, what they leave unchanged, and what every step keeps. -/

open Sys2Proof Sys2Proof.Machine

/-! ### The SCU: arithmetic, conditions, transfers -/

/-- 06 R134, whole: each ALU operation of three or two registers completes, writes the table's value to g[d] and changes nothing else. -/
def Obligations.AluOperations : Prop :=
  ∀ (s : State) (gd : Guard) (d a b : Nat), s.runs gd [d, a, b] → d < 32 →
    let x := (s.ctx s.here).reg a
    let y := (s.ctx s.here).reg b
    let n := y.toNat % 64
    (∀ e ∈ [(Instr.add gd d a b, x + y), (.sub gd d a b, x - y), (.and gd d a b, x &&& y), (.or gd d a b, x ||| y),
            (.xor gd d a b, x ^^^ y), (.andn gd d a b, x &&& ~~~y), (.shl gd d a b, x <<< n), (.shr gd d a b, x >>> n),
            (.sha gd d a b, BitVec.ofInt 64 (x.toInt / 2 ^ n)), (.rot gd d a b, x.rotateRight n),
            (.min gd d a b, if x.toInt ≤ y.toInt then x else y), (.max gd d a b, if x.toInt ≤ y.toInt then y else x),
            (.minn gd d a b, if x.toNat ≤ y.toNat then x else y), (.maxn gd d a b, if x.toNat ≤ y.toNat then y else x)],
      ∃ t, exec e.1 s = .next t ∧ (s.ctx s.here).WroteReg (t.ctx s.here) d e.2 2 ∧ s.ScuOnly t)
    ∧ (∃ t m, exec (.clz gd d a) s = .next t ∧ m ≤ 64 ∧ (∀ i, 64 - m ≤ i → x.getLsbD i = false) ∧ (m < 64 → x.getLsbD (63 - m) = true)
        ∧ (s.ctx s.here).WroteReg (t.ctx s.here) d (BitVec.ofNat 64 m) 2 ∧ s.ScuOnly t)
    ∧ (∃ t m, exec (.ctz gd d a) s = .next t ∧ m ≤ 64 ∧ (∀ i, i < m → x.getLsbD i = false) ∧ (m < 64 → x.getLsbD m = true)
        ∧ (s.ctx s.here).WroteReg (t.ctx s.here) d (BitVec.ofNat 64 m) 2 ∧ s.ScuOnly t)
    ∧ (∃ t, exec (.popc gd d a) s = .next t
        ∧ (s.ctx s.here).WroteReg (t.ctx s.here) d (BitVec.ofNat 64 ((List.range 64).countP x.getLsbD)) 2 ∧ s.ScuOnly t)

/-- 06 R138, whole: the multiply and divide forms complete for every pair of operands, with the table's edge cases. -/
def Obligations.MultiplyDivide : Prop :=
  ∀ (s : State) (gd : Guard) (d a b : Nat), s.runs gd [d, a, b] → d < 32 →
    let x := (s.ctx s.here).reg a
    let y := (s.ctx s.here).reg b
    let low := x = 0x8000000000000000 ∧ y = BitVec.allOnes 64
    ∀ e ∈ [(Instr.mul gd d a b, x * y),
           (.mulh gd d a b, (x.signExtend 128 * y.signExtend 128).extractLsb' 64 64),
           (.mulhn gd d a b, (x.setWidth 128 * y.setWidth 128).extractLsb' 64 64),
           (.div gd d a b, if y = 0 then BitVec.allOnes 64 else if low then 0x8000000000000000 else BitVec.ofInt 64 (x.toInt.tdiv y.toInt)),
           (.divn gd d a b, if y = 0 then BitVec.allOnes 64 else x / y),
           (.rem gd d a b, if y = 0 then x else if low then 0 else BitVec.ofInt 64 (x.toInt.tmod y.toInt)),
           (.remn gd d a b, if y = 0 then x else x % y)],
      ∃ t, exec e.1 s = .next t ∧ (s.ctx s.here).WroteReg (t.ctx s.here) d e.2 2 ∧ s.ScuOnly t

/-- 06 R135-R137 and the 16-bit forms of 05 R113: the immediate operations complete with the values given there. -/
def Obligations.ImmediateOperations : Prop :=
  ∀ (s : State) (gd : Guard) (d a i : Nat), d < 32 →
    let c := s.ctx s.here
    let x := c.reg a
    let y := c.reg d
    let i10 : Word := (BitVec.ofNat 10 i).signExtend 64
    let i5 : Word := (BitVec.ofNat 5 i).signExtend 64
    (s.runs gd [d, a] → ∀ e ∈ [(Instr.addi gd d a i, x + i10), (.andi gd d a i, x &&& i10), (.ori gd d a i, x ||| i10), (.xori gd d a i, x ^^^ i10)],
      ∃ t, exec e.1 s = .next t ∧ c.WroteReg (t.ctx s.here) d e.2 2 ∧ s.ScuOnly t)
    ∧ (s.runs gd [d, a] → i < 64 →
        ∀ e ∈ [(Instr.shli gd d a i, x <<< i), (.shri gd d a i, x >>> i), (.shai gd d a i, BitVec.ofInt 64 (x.toInt / 2 ^ i)), (.roti gd d a i, x.rotateRight i)],
          ∃ t, exec e.1 s = .next t ∧ c.WroteReg (t.ctx s.here) d e.2 2 ∧ s.ScuOnly t)
    ∧ (s.runs gd [d] → i < 2 ^ 15 →
        ∀ e ∈ [(Instr.li gd d i, (BitVec.ofNat 15 i).signExtend 64), (.lis gd d i, (y <<< 15) ||| BitVec.ofNat 64 i)],
          ∃ t, exec e.1 s = .next t ∧ c.WroteReg (t.ctx s.here) d e.2 2 ∧ s.ScuOnly t)
    ∧ (s.runs .always [d, a] →
        ∀ e ∈ [(Instr.mov16 d a, x), (.add16 d a, y + x), (.sub16 d a, y - x), (.and16 d a, y &&& x), (.or16 d a, y ||| x), (.xor16 d a, y ^^^ x)],
          ∃ t, exec e.1 s = .next t ∧ c.WroteReg (t.ctx s.here) d e.2 1 ∧ s.ScuOnly t)
    ∧ (s.runs .always [d] → i < 32 →
        ∀ e ∈ [(Instr.addi16 d i, y + i5), (.li16 d i, i5), (.shli16 d i, y <<< i), (.shri16 d i, y >>> i)],
          ∃ t, exec e.1 s = .next t ∧ c.WroteReg (t.ctx s.here) d e.2 1 ∧ s.ScuOnly t)

/-- 06 R139 and R140, whole: a compare writes its condition and the complement to a pair, KOP one bit; a write to k15 is discarded. -/
def Obligations.ConditionOperations : Prop :=
  ∀ (s : State) (gd : Guard),
    let c := s.ctx s.here
    (∀ a b i kp, s.runs gd [a, b] → kp < 8 → i < 1024 →
      let x := c.reg a
      let y := c.reg b
      let si : Word := (BitVec.ofNat 10 i).signExtend 64
      let zi : Word := BitVec.ofNat 64 i
      let signedCond (z : Word) : List Bool := [x == z, x != z, decide (x.toInt < z.toInt), decide (z.toInt ≤ x.toInt)]
      let naturalCond (z : Word) : List Bool := [decide (x.toNat < z.toNat), decide (z.toNat ≤ x.toNat), (x &&& z) != 0, (x &&& z) == 0]
      ∀ cc, cc < 4 →
        ∀ e ∈ [(Instr.cmp gd kp a b cc, signedCond y), (.cmpn gd kp a b cc, naturalCond y), (.cmpi gd kp a i cc, signedCond si),
               (.cmpin gd kp a i cc, naturalCond zi)],
          ∃ t v, exec e.1 s = .next t ∧ e.2[cc]? = some v ∧ s.ScuOnly t
            ∧ c.WroteCond (t.ctx s.here) (fun j => if j = 2 * kp then v else if j = 2 * kp + 1 ∧ j ≠ 15 then !v else c.cond j))
    ∧ (∀ d a b, s.runs gd [] → d < 16 →
        let x := c.cond a
        let y := c.cond b
        ∀ e ∈ [(Instr.kand gd d a b, x && y), (.kor gd d a b, x || y), (.kxor gd d a b, x != y), (.kandn gd d a b, x && !y)],
          ∃ t, exec e.1 s = .next t ∧ s.ScuOnly t ∧ c.WroteCond (t.ctx s.here) (fun j => if j = d ∧ d ≠ 15 then e.2 else c.cond j))

/-- 06 R141: KPOP of either size removes the oldest vote, into k[d] unless d is 15; on an empty queue it issues and blocks where it stands, with no
other effect than its cost, which it pays once (17 R379). -/
def Obligations.VotePop : Prop :=
  ∀ (s : State) (gd : Guard) (d : Nat), d < 16 →
    let c := s.ctx s.here
    ∀ e ∈ [(Instr.kpop gd d, gd, 2), (.kpop16 d, Guard.always, 1)], s.runs e.2.1 [] →
      (∀ v rest, c.votes = v :: rest →
        ∃ t, exec e.1 s = .next t ∧ s.ScuOnly t ∧ (t.ctx s.here).votes = rest
          ∧ (∀ j, j < 16 → (t.ctx s.here).cond j = if j = d ∧ d ≠ 15 then v else c.cond j)
          ∧ { c.complete e.2.2 with k := (t.ctx s.here).k, votes := rest } = t.ctx s.here)
      ∧ (c.votes = [] → exec e.1 s = .next (s.beginWait c.blocked))

/-- 06 R142-R143: PBT and PBTR set a branch target; XFER, XFERL and the 16-bit XFER begin a transfer with two delay slots, taken as their
guard says, and an XFERL that is taken writes the index just after them. In a delay slot a transfer of either size is illegal whatever its
guard, and so is SWPT (R144). Completing an instruction without a pending transfer goes to the next index; in the first delay slot one slot
less is left; after the second stands the target if the transfer was taken, else the next index. -/
def Obligations.ControlTransfers : Prop :=
  ∀ (s : State) (gd : Guard) (bt : Nat), bt < 4 →
    let c := s.ctx s.here
    (∀ v, s.runs gd [] → v < 2 ^ 14 →
      ∃ t, exec (.pbt gd bt v) s = .next t ∧ s.ScuOnly t ∧ (∀ i, i < 4 → (t.ctx s.here).target i = if i = bt then v else c.target i)
        ∧ { c.complete 2 with b := (t.ctx s.here).b } = t.ctx s.here)
    ∧ (∀ a, s.runs gd [a] →
        ∃ t, exec (.pbtr gd bt a) s = .next t ∧ s.ScuOnly t
          ∧ (∀ i, i < 4 → (t.ctx s.here).target i = if i = bt then (c.reg a).toNat % 2 ^ 14 else c.target i)
          ∧ { c.complete 2 with b := (t.ctx s.here).b } = t.ctx s.here)
    ∧ (c.xfer = none →
        ∃ t, exec (.xfer gd bt) s = .next t
          ∧ t.ctx s.here = { c with pc := c.pc + 2, xfer := some ⟨c.target bt, c.guardOn gd, 2⟩ }
          ∧ (∀ d, d ≠ s.here → t.ctx d = s.ctx d) ∧ { t with ctxs := s.ctxs, cores := s.cores } = s
          ∧ (c.guardOn gd = true → s.ScuOnly t) ∧ (c.guardOn gd = false → t.cores = s.cores))
    ∧ (c.xfer = none →
        ∃ t, exec (.xfer16 bt) s = .next t
          ∧ t.ctx s.here = { c with pc := c.pc + 1, xfer := some ⟨c.target bt, true, 2⟩ } ∧ s.ScuOnly t)
    ∧ (∀ d, c.xfer = none → d < 32 → s.runs gd [d] →
        ∃ t, exec (.xferl gd bt d) s = .next t ∧ s.ScuOnly t
          ∧ (∀ i, (t.ctx s.here).reg i = if i = d ∧ d ≠ 0 then BitVec.ofNat 64 (s.afterSlots s.here c.pc 2 % 2 ^ 14) else c.reg i)
          ∧ { c with g := (t.ctx s.here).g, pc := c.pc + 2, xfer := some ⟨c.target bt, true, 2⟩ } = t.ctx s.here)
    ∧ (∀ d, c.xfer ≠ none → ∀ i ∈ [Instr.xfer gd bt, .xferl gd bt d, .xfer16 bt, .swpt gd d],
        exec i s = .next (s.trap s.here 0 0x01 (BitVec.ofNat 64 (encodeWord i))))
    ∧ (s.runs gd [] →
        ∃ t, exec (.nop gd) { s with agent := { s.agent with kind := .scu } } = .next t
          ∧ (c.xfer = none → (t.ctx s.here).pc = c.pc + 2 ∧ (t.ctx s.here).xfer = none)
          ∧ (∀ z tk, c.xfer = some ⟨z, tk, 2⟩ → (t.ctx s.here).pc = c.pc + 2 ∧ (t.ctx s.here).xfer = some ⟨z, tk, 1⟩)
          ∧ (∀ z tk, c.xfer = some ⟨z, tk, 1⟩ → (t.ctx s.here).pc = (if tk then z else c.pc + 2) ∧ (t.ctx s.here).xfer = none))

/-! ### The SCU: memory -/

/-- 06 R146 in VA space: an aligned load that no fence or release holds completes with the mapped bytes, sign- or zero-extended; a store
writes the low bytes of g[d] there and no other byte. `u` is the state after translation, which differs from `s` in TLBs and the free-value counter only
(Obligations.Translation). This where no write's order is open; where some are (04 R74, R76, R81, R89-R90), each byte of a weak load is its own context's late
write's, or what stands there, or what stood there before some newest writes that it need not observe; and a weak store may leave memory as it
was and be performed later. Which of these a run has is the model's schedule (log entry 7). -/
def Obligations.VaLoadsAndStores : Prop :=
  ∀ (s u : State) (gd : Guard) (d a o z r sc : Nat) (as : List Nat), s.runs gd [d, a] → d < 32 → z < 4 →
    let c := s.ctx s.here
    let n := 2 ^ z
    let addr : Word := c.reg a + (BitVec.ofNat 5 o).signExtend 64 * BitVec.ofNat 64 n
    addr.toNat < 2 ^ 56 → addr.toNat % n = 0 → u.Sound as →
    (s.strict → s.heldBack false false = false → s.mapVA s.here.coreId .scu (s.asid s.here) addr.toNat n true false = .ok as u →
      (∃ t, exec (.ld gd d a o z r sc) s = .next t ∧ u.ScuOnly t
        ∧ c.WroteReg (t.ctx s.here) d ((BitVec.ofNat (8 * n) (leNat (as.map s.rd))).signExtend 64) 2)
      ∧ (∃ t, exec (.ldn gd d a o z r sc) s = .next t ∧ u.ScuOnly t
        ∧ c.WroteReg (t.ctx s.here) d (BitVec.ofNat 64 (leNat (as.map s.rd))) 2))
    ∧ (s.strict → s.heldBack (r != 0) (r == 3) = false → s.mapVA s.here.coreId .scu (s.asid s.here) addr.toNat n false true = .ok as u →
        ∃ t, exec (.st gd d a o z r sc) s = .next t ∧ t.ctx s.here = c.complete 2 ∧ u.ScuStored t as
          ∧ as.map t.rd = natLe n (c.reg d).toNat)
    ∧ (s.heldBack false false = false → s.mapVA s.here.coreId .scu (s.asid s.here) addr.toNat n true false = .ok as u →
        ∃ t bs, exec (.ldn gd d a o z 0 sc) s = .next t ∧ bs.length = as.length ∧ (∀ p ∈ as.zip bs, u.mayRead s.agent p.1 p.2)
          ∧ c.WroteReg (t.ctx s.here) d (BitVec.ofNat 64 (leNat bs)) 2 ∧ u.ScuPaid t
          ∧ { t with ctxs := u.ctxs, cores := u.cores, order := u.order } = u ∧ t.order.late = u.order.late)
    ∧ (s.leeway.late = true → u.mayLinger (as.zip (natLe n (c.reg d).toNat)) = true → s.heldBack false false = false →
        s.mapVA s.here.coreId .scu (s.asid s.here) addr.toNat n false true = .ok as u →
          ∃ t ws, exec (.st gd d a o z 0 sc) s = .next t ∧ t.ctx s.here = c.complete 2 ∧ (∀ x, t.rd x = s.rd x)
            ∧ t.order.late = u.order.late ++ ws ∧ t.order.open_ = u.order.open_ ∧ (∀ w ∈ ws, w.by_ = some s.agent ∧ w.strong = false)
            ∧ (ws.map (fun w => w.cells)).flatten = as.zip (natLe n (c.reg d).toNat))

/-- 15 R323-R326: translating changes TLBs, micro-TLBs and the model's free-value counter only, whatever it answers. With no cached leaf and
the walkers not assisted, an access inside one page whose walk ends in a leaf with the rights it needs gets the consecutive bytes of the
leaf's page, and the leaf is cached. -/
def Obligations.Translation : Prop :=
  ∀ (s : State) (c : CoreId) (k : AgentKind) (asid va n : Nat) (r w : Bool),
    let same (u : State) : Prop := { u with dies := s.dies, cores := s.cores, freeCtr := s.freeCtr } = s
      ∧ (∀ d, { u.die d with tlb := (s.die d).tlb } = s.die d) ∧ (∀ x, { u.core x with utlb := (s.core x).utlb } = s.core x)
      ∧ (∀ d, d ≠ c.die → u.die d = s.die d) ∧ (∀ x, x ≠ c → u.core x = s.core x)
    (match s.mapVA c k asid va n r w with
      | .ok _ u => same u
      | .fault _ _ u => same u
      | .absent _ _ u => same u
      | .busy u => same u)
    ∧ ∀ l e, s.cachedLeaf c k asid va = none → s.duty.testBit 6 = false → s.walk c.die asid va = .leaf e l →
        (r = true → wbit e 2 = true) → (w = true → wbit e 3 = true) → (s.die c.die).repairBusy = false → 0 < n → va % 65536 + n ≤ 65536 →
          s.mapVA c k asid va n r w
            = .ok ((List.range n).map (fun i => vatAt c.die (wfld e 13 24 * 2 ^ 13 + va % 2 ^ pageBits l + i))) (s.cacheLeaf c k ⟨asid, va, l, e⟩)

/-- 06 R146-R147, 03 R54-R58, in local S-space: on scratchpad bytes that exist and on a tile the task holds, that no engine owns and no
exchange holds, loads give the bytes, and stores write them and no other byte, where no write's order is open (log entry 7); a store to a docent area is the
docent's alone (13 R271). -/
def Obligations.LocalLoadsAndStores : Prop :=
  ∀ (s : State) (gd : Guard) (d a o z r sc : Nat), s.runs gd [d, a] → d < 32 → z < 4 → s.strict →
    let c := s.ctx s.here
    let n := 2 ^ z
    let addr := (c.reg a + (BitVec.ofNat 5 o).signExtend 64 * BitVec.ofNat 64 n).toNat % 2 ^ 32
    let tile := (addr - 0x10000000) / 65536
    let inTile : Prop := 0x10000000 ≤ addr ∧ addr < 0x10100000 ∧ tile < s.tileCount s.here ∧ s.owned s.here tile = false
      ∧ s.exchanging s.here tile = false
    let as := (List.range n).map (fun i =>
      if addr < 0x08000000 then scratchAt s.here.die (addr + i)
      else tileAt s.here.coreId (s.tilePos s.here tile) (addr % 65536 + i))
    addr % n = 0 → (addr < 0x08000000 ∧ addr % 0x200000 + n ≤ 0x180000 ∨ inTile) → s.Sound as →
    (s.heldBack false false = false → ∃ t, exec (.sld gd d a o z r sc) s = .next t ∧ s.ScuOnly t
      ∧ c.WroteReg (t.ctx s.here) d ((BitVec.ofNat (8 * n) (leNat (as.map s.rd))).signExtend 64) 2)
    ∧ (s.heldBack false false = false → ∃ t, exec (.sldn gd d a o z r sc) s = .next t ∧ s.ScuOnly t
      ∧ c.WroteReg (t.ctx s.here) d (BitVec.ofNat 64 (leNat (as.map s.rd))) 2)
    ∧ (s.heldBack (r != 0) (r == 3) = false → s.here.ctx = 4 ∨ addr % 0x200000 + n ≤ 0x17F000 ∨ inTile →
        ∃ t, exec (.sst gd d a o z r sc) s = .next t ∧ t.ctx s.here = c.complete 2 ∧ s.ScuStored t as
          ∧ as.map t.rd = natLe n (c.reg d).toNat)

/-- 06 R146-R147 and R132: the scalar accesses that trap, in the order of their checks: a misaligned address, a hole, a docent area under a
task's store, a tile beyond the task's count, an ME-owned tile, a control block at another size than 4. -/
def Obligations.ScalarAccessTraps : Prop :=
  ∀ (s : State) (gd : Guard) (d a o z r sc : Nat), s.runs gd [d, a] → z < 4 →
    let n := 2 ^ z
    let w : Word := (s.ctx s.here).reg a + (BitVec.ofNat 5 o).signExtend 64 * BitVec.ofNat 64 n
    let addr := w.toNat % 2 ^ 32
    let x : Word := BitVec.ofNat 64 addr
    let traps (i : Instr) (cause : Nat) (v : Word) : Prop := exec i s = .next (s.trap s.here 0 cause v)
    let free (strong release : Bool) (p : Prop) : Prop := s.heldBack strong release = false → p
    (∀ e ∈ [(Instr.ld gd d a o z r sc, false, false), (.ldn gd d a o z r sc, false, false), (.st gd d a o z r sc, r != 0, r == 3)],
      free e.2.1 e.2.2 ((2 ^ 56 ≤ w.toNat → traps e.1 0x05 w) ∧ (w.toNat < 2 ^ 56 → w.toNat % n ≠ 0 → traps e.1 0x03 w)))
    ∧ (∀ e ∈ [(Instr.sld gd d a o z r sc, false, false), (.sldn gd d a o z r sc, false, false), (.sst gd d a o z r sc, r != 0, r == 3)],
        free e.2.1 e.2.2 (
          (addr % n ≠ 0 → traps e.1 0x03 x)
          ∧ (addr % n = 0 → addr < 0x08000000 → 0x180000 < addr % 0x200000 + n → traps e.1 0x04 x)
          ∧ (addr % n = 0 → 0x08000000 ≤ addr → addr < 0x0C000000 → traps e.1 0x04 x)
          ∧ (addr % n = 0 → 0x10000000 ≤ addr → addr < 0x10100000 → s.tileCount s.here ≤ (addr - 0x10000000) / 65536 →
              traps e.1 0x06 (BitVec.ofNat 64 ((addr - 0x10000000) / 65536)))
          ∧ (addr % n = 0 → 0x10000000 ≤ addr → addr < 0x10100000 → (addr - 0x10000000) / 65536 < s.tileCount s.here →
              s.owned s.here ((addr - 0x10000000) / 65536) = true → traps e.1 0x06 x)
          ∧ (addr % n = 0 → 0x0C000000 ≤ addr → addr < 0x0C001000 → n ≠ 4 → traps e.1 0x06 x)))
    ∧ (addr % n = 0 → addr < 0x08000000 → addr % 0x200000 + n ≤ 0x180000 → 0x17F000 < addr % 0x200000 + n → s.here.ctx ≠ 4 →
        free (r != 0) (r == 3) (traps (.sst gd d a o z r sc) 0x06 x))

/-- 06 R148-R149: an atomic on scratchpad, tile or VA bytes is one step: g[d] takes the old value, memory the new one, no other byte changes,
and the task is unreplayable (16 R362). A CAS that fails writes nothing. This where no write's order is open (log entry 7). -/
def Obligations.AtomicOperations : Prop :=
  ∀ (s : State) (gd : Guard) (d a b f z o p q : Nat), s.runs gd [d, a, b] → d < 32 → f < 8 → z < 2 → s.strict →
    let c := s.ctx s.here
    let w := if z = 1 then 64 else 32
    let va := (c.reg a).toNat
    let addr := va % 2 ^ 32
    let v : BitVec w := (c.reg b).setWidth w
    let new (old : BitVec w) : BitVec w :=
      [old + v, v, old &&& v, old ||| v, if old.toInt < v.toInt then v else old, if v.toInt < old.toInt then v else old,
        if old.toNat < v.toNat then v else old, if v.toNat < old.toNat then v else old].getD f 0
    let swapped (old : BitVec w) : BitVec w := if old = (c.reg d).setWidth w then v else old
    let did (u : State) (as : List Nat) (i : Instr) (release : Bool) (g : BitVec w → BitVec w) : Prop := s.heldBack true release = false →
      let old : BitVec w := BitVec.ofNat w (leNat (as.map s.rd))
      ∃ t, exec i s = .next t ∧ c.WroteReg (t.ctx s.here) d (old.setWidth 64) 2
        ∧ { t with ctxs := u.ctxs, cores := u.cores, mem := u.mem, tasks := u.tasks } = u ∧ u.ScuPaid t ∧ t.task = (u.spoil s.here).task
        ∧ (∀ x, x ∉ as → t.rd x = s.rd x) ∧ as.map t.rd = natLe (w / 8) (g old).toNat
    let tile := (addr - 0x10000000) / 65536
    let inTile : Prop := 0x10000000 ≤ addr ∧ addr < 0x10100000 ∧ tile < s.tileCount s.here ∧ s.owned s.here tile = false
      ∧ s.exchanging s.here tile = false
    (addr % (w / 8) = 0 →
      (addr < 0x08000000 ∧ addr % 0x200000 + w / 8 ≤ (if s.here.ctx = 4 then 0x180000 else 0x17F000) ∨ inTile) →
      let as := (List.range (w / 8)).map (fun i =>
        if addr < 0x08000000 then scratchAt s.here.die (addr + i)
        else tileAt s.here.coreId (s.tilePos s.here tile) (addr % 65536 + i))
      s.Sound as →
        did s as (.samo gd d a b f z o) false new ∧ did s as (.samor gd d a b f z o) true new
          ∧ did s as (.cas gd d a b p q z 1) (decide (2 ≤ p)) swapped)
    ∧ (∀ as u, va < 2 ^ 56 → va % (w / 8) = 0 →
        s.mapVA s.here.coreId .scu (s.asid s.here) va (w / 8) true true = .ok as u → u.Sound as →
          did u as (.amo gd d a b f z o) false new ∧ did u as (.amor gd d a b f z o) true new
            ∧ did u as (.cas gd d a b p q z 0) (decide (2 ≤ p)) swapped)

/-- 03 R60, 06 R147-R148: a load or an atomic through a valid loan window sends one request to the window's target, with the package's
id and the domain key of its partition (15 R331), and blocks; once the reply has come, it completes with the reply's bytes. A relaxed fetch-and-add
goes no further than the bridge station, whose combining window it joins (15 R341; in the cycle it is sent, log entry 109). An atomic through
a window without both rights traps 0x06. -/
def Obligations.WindowLoads : Prop :=
  ∀ (s : State) (gd : Guard) (d a o z r w off tag gen : Nat), s.runs gd [d, a] → d < 32 → z < 4 → w < 16 →
    let c := s.ctx s.here
    let y := s.window s.here.die w
    let waits (i : Instr) (p : State → Prop) : Prop := ∃ t, exec i s = .next t
      ∧ (t.ctx s.here).blocked = true ∧ (t.ctx s.here).pc = c.pc ∧ (∀ j, (t.ctx s.here).reg j = c.reg j) ∧ (∀ x, t.rd x = s.rd x) ∧ p t
    let sends (i : Instr) (o : Out) : Prop := waits i (fun t => t.outbox = s.outbox ++ [.slot s.pkg (s.carriedKey s.here.die) o])
    let ready : Prop := c.remote = none ∧ s.freeTag s.here.die = some (tag, gen) ∧ s.heldBehind ⟨some s.here.coreId, y.tpkg, y.tdie⟩ = false
    let n := 2 ^ z
    let m := if z = 1 then 8 else 4
    ((c.reg a + (BitVec.ofNat 5 o).signExtend 64 * BitVec.ofNat 64 n).toNat % 2 ^ 32 = 0x80000000 + w * 0x08000000 + off →
      off + n ≤ 0x08000000 → off % n = 0 → s.heldBack false false = false →
      (ready → s.windowOk s.here w off n true false = true →
        ∀ i ∈ [Instr.sld gd d a o z r 0, .sldn gd d a o z r 0], sends i (.load y.tpkg y.tdie (y.tbase + off) n s.here.die tag gen))
      ∧ (∀ x bs, c.remote = some x → x.answer = some (some bs) →
          (∃ t, exec (.sld gd d a o z r 0) s = .next t ∧ s.ScuOnly t
            ∧ c.WroteReg (t.ctx s.here) d (loadValue true (bs.take n)) 2)
          ∧ (∃ t, exec (.sldn gd d a o z r 0) s = .next t ∧ s.ScuOnly t
            ∧ c.WroteReg (t.ctx s.here) d (BitVec.ofNat 64 (leNat (bs.take n))) 2)))
    ∧ ∀ b f p q, s.runs gd [d, a, b] → z < 2 →
      let ops : List (Instr × Bool × Out) :=
        [(.samo gd d a b f z o, false, .atomic y.tpkg y.tdie (y.tbase + off) m f (c.reg b) 0 (o == 0) s.here.die tag gen),
         (.samor gd d a b f z o, true, .atomic y.tpkg y.tdie (y.tbase + off) m f (c.reg b) 0 false s.here.die tag gen),
         (.cas gd d a b p q z 1, decide (2 ≤ p), .atomic y.tpkg y.tdie (y.tbase + off) m 8 (c.reg d) (c.reg b) false s.here.die tag gen)]
      (c.reg a).toNat % 2 ^ 32 = 0x80000000 + w * 0x08000000 + off → off + m ≤ 0x08000000 → off % m = 0 →
      ∀ e ∈ ops, s.heldBack true e.2.1 = false → (e.2.1 = true → c.reports = []) →
        (ready → s.windowOk s.here w off m true true = true → ¬(f = 0 ∧ o = 0 ∧ e.1 = .samo gd d a b f z o) → sends e.1 e.2.2)
        ∧ (ready → s.windowOk s.here w off m true true = true → f = 0 → o = 0 →
            s.deniedPath s.here.die ⟨some s.here.coreId, y.tpkg, y.tdie⟩ = false →
              waits (.samo gd d a b f z o) (fun t => t.outbox = s.outbox ∧ ∃ x ∈ t.combining,
                x.tpkg = y.tpkg ∧ x.tdie = y.tdie ∧ x.addr = y.tbase + off ∧ x.size = m ∧ x.key = s.carriedKey s.here.die
                  ∧ (s.cycle, decide (12 - s.here.die ≤ s.here.die + 1), s.pkg * 16 + s.here.die, tag * 16 + gen,
                      BitVec.ofNat 64 ((c.reg b).toNat % 2 ^ (8 * m))) ∈ x.reqs))
        ∧ (c.remote = none → s.windowOk s.here w off m false false = true → (y.r && y.w) = false →
            exec e.1 s = .next (s.trap s.here 0 0x06 (BitVec.ofNat 64 ((c.reg a).toNat % 2 ^ 32))))
        ∧ (∀ x bs, c.remote = some x → x.answer = some (some bs) →
            ∃ t, exec e.1 s = .next t ∧ c.WroteReg (t.ctx s.here) d (BitVec.ofNat 64 (leNat (bs.take m))) 2
              ∧ { t with ctxs := s.ctxs, cores := s.cores, tasks := s.tasks } = s ∧ s.ScuPaid t ∧ t.task = (s.spoil s.here).task)

/-- 04 R83, 06 R150: the fences complete, but FENCE.ALL.domain while a posted window write of the context is not acknowledged. FENCE.WW notes
the strong posted writes that later strong writes wait for and begins a new epoch of its strong writes; FENCE.FULL and FENCE.ALL note those that every later access
waits for, and while one of them is not acknowledged such an access stalls. With no write's order open they do nothing else; else no strong write of the context is still to
be performed after FENCE.FULL, and no write of it after FENCE.ALL, whose open writes its later releases publish (04 R88). NOP
has no effect in either size, and YIELD gives up the next turn (06 R161, R163). -/
def Obligations.FencesAndNops : Prop :=
  ∀ (s : State) (gd : Guard),
    let c := s.ctx s.here
    let scu : State := { s with agent := { s.agent with kind := .scu } }
    let own (p : Posted) : Prop := p ∈ (s.core s.here.coreId).posted ∧ p.agent = s.agent ∧ p.drop = false
    let strong (l : List Nat) : Prop := ∀ n, n ∈ l ↔ ∃ p, own p ∧ p.strong = true ∧ p.id = n
    (s.runs gd [] → ∃ t l, exec (.fenceWw gd) s = .next t ∧ strong l
        ∧ t.ctx s.here = { c.complete 2 with fencedW := l, epoch := c.epoch + 1 } ∧ s.ScuOnly t)
    ∧ (s.runs gd [] → ∀ i ∈ [Instr.fenceFull gd, .fenceAllCore gd, .fenceAllDie gd],
        ∃ t l, exec i s = .next t ∧ strong l ∧ t.ctx s.here = { c.complete 2 with fenced := l } ∧ (s.order = {} → s.ScuOnly t)
          ∧ (∀ w ∈ t.order.late, w.by_ = some s.agent → w.strong = false ∧ i = .fenceFull gd)
          ∧ (i ≠ .fenceFull gd → ∀ w ∈ t.order.open_, w.by_ = some s.agent → .agent s.agent ∈ w.holders))
    ∧ (s.runs gd [] → c.reports = [] → (∀ p ∈ (s.core s.here.coreId).posted, p.agent = s.agent → p.drop = true) →
        ∃ t, exec (.fenceAllDomain gd) s = .next t ∧ t.ctx s.here = c.complete 2 ∧ (s.order = {} → s.ScuOnly t)
          ∧ ∀ w ∈ t.order.late, w.by_ ≠ some s.agent)
    ∧ (∀ p, s.runs gd [] → c.reports = [] → own p → exec (.fenceAllDomain gd) s = .next s)
    ∧ (∀ p d a b o z r sc, own p → s.runs gd [d, a] → s.runs gd [d, a, b] →
        (p.id ∈ c.fenced → ∀ i ∈ [Instr.ld gd d a o z r sc, .ldn gd d a o z r sc, .st gd d a o z r sc, .sld gd d a o z r sc,
            .sldn gd d a o z r sc, .sst gd d a o z r sc, .amo gd d a b o z r, .samo gd d a b o z r, .semget gd d a], exec i s = .next s)
        ∧ (p.id ∈ c.fencedW → r ≠ 0 → ∀ i ∈ [Instr.st gd d a o z r sc, .sst gd d a o z r sc, .amo gd d a b o z r, .samo gd d a b o z r],
            exec i s = .next s))
    ∧ (s.runs gd [] → ∃ t, exec (.nop gd) scu = .next t ∧ t.ctx s.here = c.complete 2 ∧ scu.ScuOnly t)
    ∧ (s.runs .always [] → ∃ t, exec .nop16 s = .next t ∧ t.ctx s.here = c.complete 1 ∧ s.ScuOnly t)
    ∧ (s.runs gd [] → ∃ t, exec (.yield gd) s = .next t ∧ t.ctx s.here = { c.complete 2 with yielded := true } ∧ s.ScuOnly t)

/-- 05 R102: a false guard leaves every SCU instruction without effect but the move to the next index, in the docent TSNAP and WAKE too; an XFERL
writes no link, and its two delay slots run (06 R143). -/
def Obligations.GuardedOffScu : Prop :=
  (∀ (s : State) (gd : Guard) (d a b c e f g : Nat), (s.ctx s.here).guardOn gd = false → s.docent = false → s.inSlot = false →
    s.agent.kind = .scu → regClass a ≠ .unassigned →
    ∀ i ∈ [Instr.add gd d a b, .sub gd d a b, .and gd d a b, .or gd d a b, .xor gd d a b, .andn gd d a b, .shl gd d a b, .shr gd d a b,
           .sha gd d a b, .rot gd d a b, .min gd d a b, .max gd d a b, .minn gd d a b, .maxn gd d a b, .clz gd d a, .ctz gd d a, .popc gd d a,
           .mul gd d a b, .mulh gd d a b, .mulhn gd d a b, .div gd d a b, .divn gd d a b, .rem gd d a b, .remn gd d a b, .addi gd d a b,
           .andi gd d a b, .ori gd d a b, .xori gd d a b, .shli gd d a b, .shri gd d a b, .shai gd d a b, .roti gd d a b, .li gd d a,
           .lis gd d a, .cmp gd d a b c, .cmpn gd d a b c, .cmpi gd d a b c, .cmpin gd d a b c, .kand gd d a b, .kor gd d a b,
           .kxor gd d a b, .kandn gd d a b, .pbt gd d a, .pbtr gd d a, .ld gd d a b c e f, .ldn gd d a b c e f, .st gd d a b c e f,
           .sld gd d a b c e f, .sldn gd d a b c e f, .sst gd d a b c e f, .amo gd d a b c e f, .amor gd d a b c e f, .samo gd d a b c e f,
           .samor gd d a b c e f, .cas gd d a b c e f g, .fenceWw gd, .fenceFull gd, .fenceAllCore gd, .fenceAllDie gd, .fenceAllDomain gd,
           .bind gd d a b c e, .unbind gd d a b, .semadd gd a b, .semwait gd a b, .semwdec gd a b, .semget gd d a, .semarm gd a b,
           .cmd gd d a b, .cmdr gd d a b c, .cpyt gd d a b c e, .kpop gd d, .mfs gd d a, .mts gd d a, .swpt gd d, .clkdiv gd a, .park gd,
           .yield gd, .trap gd a, .brk gd a, .tren gd, .tret gd, .nop gd],
      exec i s = .next (s.modCtx s.here (fun x => x.complete 2)))
  ∧ (∀ (s : State) (gd : Guard) (a b : Nat), (s.ctx s.here).guardOn gd = false → s.docent = true →
      ∀ i ∈ [Instr.tsnap gd a b, .wake gd a], exec i s = .next (s.modCtx s.here (fun x => x.complete 2)))
  ∧ (∀ (s : State) (gd : Guard) (d b : Nat) (c : Ctx), c = s.ctx s.here → c.guardOn gd = false → c.xfer = none →
      exec (.xferl gd b d) s = .next (s.setCtx s.here { c with pc := c.pc + 2, xfer := some ⟨c.target b, false, 2⟩ }))

/-! ### The SCU: bindings, semaphores, commands -/

/-- 06 R151-R152: BIND and UNBIND complete with the table that binding or unbinding the region gives; nothing else changes but the task. -/
def Obligations.BindAndUnbind : Prop :=
  ∀ (s : State) (gd : Guard) (d a b k sp space : Nat) (obj : BindObj) (t' : List Binding) (task : Task), s.runs gd [d, a, b] →
    let c := s.ctx s.here
    let base := (c.reg d).toNat
    let len := (c.reg a).toNat
    let did (i : Instr) : Prop := ∃ t, exec i s = .next t ∧ t.ctx s.here = c.complete 2 ∧ s.ScuPaid t
      ∧ { t with ctxs := s.ctxs, cores := s.cores, tasks := s.tasks } = s ∧ t.task s.here = some { task with bindings := t' }
      ∧ (∀ x, x ≠ s.here → t.task x = s.task x)
    s.task s.here = some task → base % 64 = 0 → len % 64 = 0 → 0 < len → len ≤ 2 ^ 40 → spaceOf sp base len = some space →
    (s.bindObj s.here sp space (c.reg b).toNat k = .ok obj → bindRegion task.bindings space base (base + len) obj = some t' →
      did (.bind gd d a b k sp))
    ∧ (unbindRegion task.bindings space base (base + len) = some t' → did (.unbind gd d a sp))

/-- 04 R86, 06 R151-R152: the table after a BIND binds every byte of the region to the object and no other byte differently than before;
after an UNBIND it binds no byte of the region, and every other byte as before. And what a binding is for (04 R84, R87-R90), where no write is late: a
SEMADD to a count publishes at its word, of the writes whose order is open, those of its own agent in the regions that are bound to its semaphore, and
those that the agent has acquired itself, and no other; a SEMWAIT that is met has its agent acquire what was published at the word; and a byte whose newest open
write an agent has acquired reads as it stands, for that agent. How writes come to be open or late is the model's schedule (log entry 7). -/
def Obligations.BindingTables : Prop :=
  (∀ (t t' : List Binding) (space lo hi : Nat) (obj : BindObj),
    let bound (l : List Binding) (x : Nat) (o : BindObj) : Prop := ∃ b ∈ l, b.space = space ∧ b.base ≤ x ∧ x < b.base + b.len ∧ b.obj = o
    (bindRegion t space lo hi obj = some t' →
      (∀ x, lo ≤ x → x < hi → bound t' x obj ∧ ∀ o, bound t' x o → o = obj)
      ∧ ∀ x o, (x < lo ∨ hi ≤ x) → (bound t' x o ↔ bound t x o))
    ∧ (unbindRegion t space lo hi = some t' → ∀ x o, bound t' x o ↔ bound t x o ∧ ¬(lo ≤ x ∧ x < hi)))
  ∧ (∀ (s : State) (gd : Guard) (a b key : Nat) (task : Task), s.runs gd [a, b] →
    let c := s.ctx s.here
    let w := s.word key
    let n : Int := ((c.reg b).setWidth 32 : BitVec 32).toInt
    let h := (c.reg a).toNat % 2 ^ 32
    let count := task.countKey s.here.die 0
    let gave (i : Instr) (p : Write → Bool) (x : Holder) : Prop := ∃ t, exec i s = .next t ∧ t.order.late = []
      ∧ t.order.open_ = s.order.open_.map (fun v => if p v then { v with holders := v.holders ++ [x] } else v)
    s.agent.kind = .scu → s.handle s.here false h = .ok key → s.vaultBad.contains key = false → s.vaultBad.contains count = false → key ≠ count →
    s.task s.here = some task → (s.word count).toNat ≤ task.p.getD 0 0 → s.heldBack false true = false → s.order.late = [] → semMode w = 0 →
    (-2 ^ 31 ≤ semCount w + n → semCount w + n < 2 ^ 31 →
      gave (.semadd gd a b) (fun v => (v.by_ == some s.agent && task.bindings.any (fun x => x.obj == .sem h && x.has v)) || v.holders.contains (.agent s.agent))
        (.word key s.here.die))
    ∧ (n ≤ semCount w →
        gave (.semwait gd a b) (fun v => v.holders.contains (.word key s.here.die) && !v.holders.contains (.agent s.agent)) (.agent s.agent)))
  ∧ ∀ (s : State) (a : AgentId) (x : Nat) (b : Byte), (∀ v ∈ s.order.late, v.by_ = some a → v.touches x = false) →
      (∀ v, s.order.open_.reverse.find? (fun v => v.touches x) = some v → v.holders.contains (.agent a) = true) → (s.mayRead a x b ↔ b = s.rd x)

/-- 03 R64-R66, 06 R153: the semaphore forms on a word of the task's allotment that no fence or release holds, where the replay count does
not suppress them (16 R361); the count word takes the position of each that completes, but of SEMGET, which traps on MODE 4-7. SEMADD adds to a
count; on a byte barrier it adds, or flips PHASE when EXPECT is reached; SEMWDEC takes from a count; SEMGET reads the word; SEMARM sets
EXPECT and clears COUNT. Each changes no other word. A wait that is not met blocks where it stands; a decrement that cannot be served
takes nothing and enters the word's waiters; either pays for its issue as it begins to wait (17 R379). This where no write's order is open: what these forms publish
and acquire is in BindingTables. -/
def Obligations.SemaphoreForms : Prop :=
  ∀ (s : State) (gd : Guard) (d a b key : Nat) (task : Task), s.runs gd [d, a, b] → s.runs gd [a, b] → s.runs gd [d, a] →
    let c := s.ctx s.here
    let w := s.word key
    let n : Int := ((c.reg b).setWidth 32 : BitVec 32).toInt
    let count := task.countKey s.here.die 0
    let h := (c.reg a).toNat % 2 ^ 32
    let did (i : Instr) (new : Word) : Prop := ∃ t, exec i s = .next t ∧ t.ctx s.here = c.complete 2 ∧ s.ScuPaid t
      ∧ (∀ x, t.word x = if x = key then new else if x = count then BitVec.ofNat 64 (task.p.getD 0 0 + 1) else s.word x)
      ∧ (∀ x, t.rd x = s.rd x) ∧ (∀ x, x ≠ s.here → t.task x = s.task x)
      ∧ { t with ctxs := s.ctxs, cores := s.cores, tasks := s.tasks, vault := s.vault, vaultBad := s.vaultBad, waiters := s.waiters } = s
    s.agent.kind = .scu → s.handle s.here false h = .ok key → s.vaultBad.contains key = false → s.vaultBad.contains count = false → key ≠ count →
    s.task s.here = some task → (s.word count).toNat ≤ task.p.getD 0 0 → s.heldBack false false = false → s.order = {} →
    (s.heldBack false true = false → semMode w = 0 → -2 ^ 31 ≤ semCount w + n → semCount w + n < 2 ^ 31 →
      did (.semadd gd a b) (mkSem (semExpect w) 0 (semPhase w) (semCount w + n)))
    ∧ (s.heldBack false true = false → semMode w = 1 → 1 ≤ n → semExpect w ≠ 0 → semCount w + n < semExpect w →
        did (.semadd gd a b) (mkSem (semExpect w) 1 (semPhase w) (semCount w + n)))
    ∧ (s.heldBack false true = false → semMode w = 1 → 1 ≤ n → semExpect w ≠ 0 → semCount w + n = semExpect w →
        did (.semadd gd a b) (mkSem (semExpect w) 1 (!semPhase w) 0))
    ∧ (semMode w = 0 → n ≤ semCount w → did (.semwait gd a b) w)
    ∧ (semMode w = 1 → semPhase w = decide (n % 2 = 1) → did (.semwait gd a b) w)
    ∧ (semMode w = 0 → semCount w < n → exec (.semwait gd a b) s = .next (s.beginWait c.blocked))
    ∧ (semMode w = 0 → 1 ≤ (c.reg b).toNat → ((c.reg b).toNat : Int) ≤ semCount w → (∀ x ∈ s.waiters, x.1 ≠ key) →
        did (.semwdec gd a b) (mkSem (semExpect w) 0 (semPhase w) (semCount w - (c.reg b).toNat)))
    ∧ (d < 32 → semMode w < 4 → ∃ t, exec (.semget gd d a) s = .next t ∧ c.WroteReg (t.ctx s.here) d w 2 ∧ s.ScuOnly t)
    ∧ (4 ≤ semMode w → exec (.semget gd d a) s = .next (s.trap s.here 0 0x09 (BitVec.ofNat 64 h)))
    ∧ (s.heldBack false true = false → semMode w = 1 → 1 ≤ (c.reg b).toNat → (c.reg b).toNat < 2 ^ 28 →
        did (.semarm gd a b) (mkSem (c.reg b).toNat 1 (semPhase w) 0))
    ∧ (semMode w = 0 → 1 ≤ (c.reg b).toNat → (c.reg b).toNat < 2 ^ 31 → semCount w < (c.reg b).toNat →
        ∃ t, exec (.semwdec gd a b) s = .next t ∧ t.vault = s.vault ∧ t.tasks = s.tasks ∧ (t.ctx s.here).pc = c.pc
          ∧ (t.ctx s.here).blocked = true ∧ (t.waiters.filter (fun x => x.1 = key ∧ x.2.1 = s.agent)) ≠ [] ∧ ∀ x ∈ s.waiters, x ∈ t.waiters)

/-- 06 R154-R155: CMD appends a legal record to the queue of the slot's engine and writes its append count; CMDR does so on another slot
that holds a task of the same launch, which makes its own task unreplayable (16 R362). On a full
queue of 64 either blocks and appends nothing (06 R133); a CMDR that waits so for a slot whose task has ended meanwhile traps. That an enqueue
writes the count it has then reached is the model's choice (log entry 75). This where no write's order is open (log entry 7). -/
def Obligations.CommandEnqueue : Prop :=
  ∀ (s u : State) (gd : Guard) (d a b e : Nat) (as : List Nat) (x : CtxId), s.runs gd [d, a] → s.runs gd [d, a, b] → d < 32 → e < 4 →
    let c := s.ctx s.here
    let va := (c.reg a).toNat
    let image := as.map s.rd
    let appended (t : State) (ag : AgentId) : Prop := t.stream ag = { s.stream ag with
        queue := (s.stream ag).queue ++ [recOf image va], appended := (s.stream ag).appended + 1 }
      ∧ (∀ y, y ≠ ag → t.stream y = s.stream y) ∧ (∀ y, t.rd y = s.rd y)
      ∧ c.WroteReg (t.ctx s.here) d (BitVec.ofNat 64 ((s.stream ag).appended + 1)) 2
    s.docent = false → va < 2 ^ 56 → va % 256 = 0 →
    s.mapVA s.here.coreId .scu (s.asid s.here) va 256 true false = .ok as u → u.Sound as → recLegal image e = true →
    s.heldBack false true = false → s.order = {} →
    ((s.stream (s.here.agent (engineKind e))).queue.length < 64 →
      ∃ t, exec (.cmd gd d a e) s = .next t ∧ appended t (s.here.agent (engineKind e))
        ∧ { t with ctxs := u.ctxs, cores := u.cores, streams := u.streams } = u ∧ u.ScuPaid t)
    ∧ (s.peerSlot (c.reg b).toNat = some x → (∀ y, c.cmdTarget ≠ some (y, true)) → x ≠ s.here → (s.stream (x.agent (engineKind e))).queue.length < 64 →
        ∃ t, exec (.cmdr gd d a b e) s = .next t ∧ appended t (x.agent (engineKind e))
          ∧ { t with ctxs := u.ctxs, cores := u.cores, streams := u.streams, tasks := u.tasks } = u ∧ u.ScuPaid t
          ∧ t.task = (u.spoil s.here).task)
    ∧ (64 ≤ (s.stream (s.here.agent (engineKind e))).queue.length →
        exec (.cmd gd d a e) s = .next (u.beginWait c.blocked))
    ∧ (s.peerSlot (c.reg b).toNat = some x → (∀ y, c.cmdTarget ≠ some (y, true)) → 64 ≤ (s.stream (x.agent (engineKind e))).queue.length →
        exec (.cmdr gd d a b e) s = .next ((u.modCtx s.here (fun y => { y with cmdTarget := some (x, false) })).beginWait c.blocked))
    ∧ (∀ y, c.cmdTarget = some (y, true) → exec (.cmdr gd d a b e) s = .next (s.trap s.here 0 0x06 (c.reg b)))

/-- 06 R156: CPYT between ranges of existing, permitted bytes that do not overlap starts a copy with g[d] as its token, at most four at a
time; the bytes move in its own time. That an S-space base is the low 32 bits of its register is the model's choice (log entry 51). -/
def Obligations.CopyStarts : Prop :=
  ∀ (s : State) (gd : Guard) (d a b src dst : Nat), s.runs gd [d, a, b] →
    let c := s.ctx s.here
    let n := (c.reg d).toNat
    let place (space v : Nat) : Nat := if space = 1 then v % 2 ^ 32 else v
    let to_ := place dst (c.reg a).toNat
    let from_ := place src (c.reg b).toNat
    let open_ (space v : Nat) : Prop := if space = 1 then v < 0x08000000 ∧ v % 0x200000 + n ≤ 0x17F000 else v + n ≤ 2 ^ 56
    s.docent = false → 0 < n → n ≤ 2 ^ 24 → open_ dst to_ → open_ src from_ → ((dst = 1 ↔ src = 1) → to_ + n ≤ from_ ∨ from_ + n ≤ to_) →
    c.copies.length < 4 → s.heldBack false false = false →
      ∃ t, exec (.cpyt gd d a b src dst) s = .next t ∧ s.ScuOnly t
        ∧ t.ctx s.here = { c.complete 2 with copies := c.copies ++ [⟨d, n, to_, from_, dst == 1, src == 1, none⟩] }

/-! ### The SCU: state registers and the system instructions -/

/-- 05 R121, 06 R158: MFS gives each readable register its value. PWRLVL may still be the level before a step that has not reached the core
(17 R373). Over CYCLE, SLOT, COREID and PWRLVL stands what the supervisor has written, from which CYCLE counts on, and which PWRLVL keeps until the
next step: how long a written value stands is the model's choice (13 R272; log entry 87). -/
def Obligations.StateRegisterReads : Prop :=
  ∀ (s : State) (gd : Guard) (d : Nat), s.runs gd [d] → d < 32 →
    let c := s.ctx s.here
    let k := s.core s.here.coreId
    let read (n : Nat) (v : Word) : Prop := ∃ t, exec (.mfs gd d n) s = .next t ∧ c.WroteReg (t.ctx s.here) d v 2 ∧ s.ScuOnly t
    let nat (v : Nat) : Word := BitVec.ofNat 64 v
    read 0x000 (nat s.cycles + k.cycleAdj) ∧ (k.slotSet = [] → read 0x001 (nat s.here.ctx))
    ∧ (∀ v, k.slotSet = [(s.here.ctx, v)] → read 0x001 (nat v))
    ∧ (k.idSet = none → read 0x002 (nat (s.here.core + s.here.die * 2 ^ 6 + s.pkg * 2 ^ 10))) ∧ (∀ v, k.idSet = some v → read 0x002 (nat v))
    ∧ (∀ l n, k.levelSet = some (l, n) → n = s.power.steps → read 0x003 (nat l))
    ∧ ((∀ l n, k.levelSet = some (l, n) → n ≠ s.power.steps) →
        (k.sawStep = s.power.steps ∨ s.power.was = s.power.settled → read 0x003 (nat s.power.settled))
        ∧ ∃ t l, exec (.mfs gd d 0x003) s = .next t ∧ l ∈ [s.power.settled, s.power.was] ∧ c.WroteReg (t.ctx s.here) d (nat l) 2)
    ∧ read 0x004 c.sched
    ∧ read 0x005 (nat (k.clkdiv.getD 0 0 + 16 * k.clkdiv.getD 1 0 + 256 * k.clkdiv.getD 2 0 + 4096 * k.clkdiv.getD 3 0 + 65536 * k.clkdiv.getD 4 0))
    ∧ read 0x006 (nat ((s.ve s.here).shadow.tile + 16 * (s.ve s.here).shadow.half))
    ∧ (∀ i, i < 8 → read (0x010 + i) (nat (c.lvx.getD i 0)) ∧ read (0x018 + i) (nat (c.lve.getD i 0)))
    ∧ (∀ i, i < 16 → read (0x020 + i) (nat (k.lwallow.getD i 1024)))
    ∧ read 0x040 (nat ((if s.here.ctx < 4 then s.here.ctx else c.slotn) * 2 ^ 12 + c.src * 2 ^ 8 + c.depth * 2 ^ 4 + (if c.wopen then 1 else 0))) ∧ read 0x041 c.tpc
    ∧ read 0x042 (nat c.tcause) ∧ read 0x043 c.tval ∧ read 0x044 (nat c.trep) ∧ read 0x045 (nat c.tvec)
    ∧ (s.docent = true → read 0x100 k.tdlg ∧ read 0x101 (nat k.dshare) ∧ (∀ i, i < 4 → read (0x110 + i) (nat (k.mbhold.getD i 0)))
        ∧ ∀ i, i < 5 → read (0x120 + i) (nat (k.wdt.getD i 0)))

/-- 05 R121-R122, 06 R158: MTS writes the registers the context may write; the docent's are the docent's alone, TPC only inside a handler. A
register outside a context's rights is a trap with cause 0x06 and its number; an unassigned number is an illegal word. -/
def Obligations.StateRegisterWrites : Prop :=
  ∀ (s : State) (gd : Guard) (d : Nat), s.runs gd [d] →
    let c := s.ctx s.here
    let v := c.reg d
    let k := s.core s.here.coreId
    let core (n : Nat) (k' : Core) : Prop := ∃ t, exec (.mts gd d n) s = .next t ∧ t.ctx s.here = c.complete 2
      ∧ { t with ctxs := s.ctxs, cores := s.cores } = s ∧ (∀ x, x ≠ s.here → t.ctx x = s.ctx x) ∧ (∀ x, x ≠ s.here.coreId → t.core x = s.core x)
      ∧ t.core s.here.coreId = { k' with buckets := (t.core s.here.coreId).buckets }
    (∃ t, exec (.mts gd d 0x045) s = .next t ∧ t.ctx s.here = { c.complete 2 with tvec := v.toNat % 2 ^ 14 } ∧ s.ScuOnly t)
    ∧ (c.depth ≠ 0 → ∃ t, exec (.mts gd d 0x041) s = .next t ∧ t.ctx s.here = { c.complete 2 with tpc := v &&& 0xFFFFFFFF } ∧ s.ScuOnly t)
    ∧ (s.docent = true → core 0x100 { k with tdlg := v &&& 0x2FFFA0000BFFA } ∧ (v.toNat % 8 ≤ 4 → core 0x101 { k with dshare := v.toNat % 8 })
        ∧ (∀ i, i < 4 → core (0x110 + i) { k with mbhold := k.mbhold.setIfInBounds i (v.toNat % 2 ^ 16) })
        ∧ ∀ i, i < 5 → core (0x120 + i) { k with wdt := k.wdt.setIfInBounds i (v.toNat % 2 ^ 32) })
    ∧ ∀ n, n < 1024 →
        let refused (i : Instr) : Prop := exec i s = .next (s.trap s.here 0 0x06 (BitVec.ofNat 64 n))
        (regClass n = .unassigned → ∀ i ∈ [Instr.mfs gd d n, .mts gd d n], exec i s = .next (s.trap s.here 0 0x01 (BitVec.ofNat 64 (encodeWord i))))
        ∧ (n = 0x200 → refused (.mfs gd d n) ∧ refused (.mts gd d n))
        ∧ (regClass n = .docent → s.docent = false → refused (.mfs gd d n) ∧ refused (.mts gd d n))
        ∧ (regClass n = .task → n ≠ 0x045 → n ≠ 0x041 → refused (.mts gd d n))
        ∧ (n = 0x041 → c.depth = 0 → refused (.mts gd d n))

/-- 06 R160: CLKDIV sets each divisor whose field is not 0, of which the SCU's runs at once (17 R376-R377), and no unit loses a cycle it has
had, which is the model's choice (log entry 78); a field above 8 or a bit above 19 is a trap that changes none. 01 R25, 06 R159: a
switch point continues at the entry of the variant the skim block names for the granted level, when that is another variant than the one
that runs; a kernel without a skim block goes on. -/
def Obligations.ClockAndSwitchPoints : Prop :=
  (∀ (s : State) (gd : Guard) (a : Nat), s.runs gd [a] → s.docent = false →
      let v := ((s.ctx s.here).reg a).toNat
      let field (i : Nat) : Nat := v / 16 ^ i % 16
      let k := s.core s.here.coreId
      (v < 2 ^ 20 → (∀ i, i < 5 → field i ≤ 8) → ∃ t, exec (.clkdiv gd a) s = .next t ∧ t.ctx s.here = (s.ctx s.here).complete 2
        ∧ { t with ctxs := s.ctxs, cores := s.cores } = s ∧ (∀ x, x ≠ s.here → t.ctx x = s.ctx x) ∧ (∀ x, x ≠ s.here.coreId → t.core x = s.core x)
        ∧ (∀ i, i < 5 → (t.core s.here.coreId).clkdiv.getD i 0 = if field i = 0 then k.clkdiv.getD i 0 else field i)
        ∧ (∀ i, 0 < i → i < 5 → (t.core s.here.coreId).clkeff.getD i 0 = k.clkeff.getD i 0)
        ∧ (t.core s.here.coreId).clkeff.getD 0 0 = (if 6 ≤ s.depthOf s.here.die then max 4 ((t.core s.here.coreId).clkdiv.getD 0 0)
            else (t.core s.here.coreId).clkdiv.getD 0 0)
        ∧ (∀ u, (t.core s.here.coreId).unitCycles u s.cycle = k.unitCycles u s.cycle)
        ∧ { t.core s.here.coreId with clkdiv := k.clkdiv, clkeff := k.clkeff, buckets := k.buckets, unitBase := k.unitBase } = k)
      ∧ (2 ^ 20 ≤ v ∨ (∃ i, i < 5 ∧ 8 < field i) → exec (.clkdiv gd a) s = .next (s.trap s.here 0 0x06 ((s.ctx s.here).reg a)))) ∧
  (∀ (s : State) (gd : Guard) (i v e k : Nat) (task : Task), s.runs gd [] → s.docent = false → s.inSlot = false →
      s.task s.here = some task → (s.core s.here.coreId).levelSet = none →
      ((s.core s.here.coreId).sawStep = s.power.steps ∨ s.power.was = s.power.settled) → s.ecc = [] →
      let c := s.ctx s.here
      let half (j : Nat) : Nat := s.rdNat (ispaceAt s.here.coreId (2 * (k + j))) 2
      let frame (t : State) : Prop := { t with ctxs := s.ctxs, cores := s.cores } = s ∧ ∀ x, x ≠ s.here → t.ctx x = s.ctx x
      (task.skim = none → ∃ t, exec (.swpt gd i) s = .next t ∧ t.ctx s.here = c.complete 2 ∧ frame t)
      ∧ (task.skim = some k → v = half (s.power.settled / 2) / 256 ^ (s.power.settled % 2) % 256 → v ≠ c.variant → i < half 4 % 2 ^ 11 →
          e = half (5 + v * (half 4 % 2 ^ 11) + i) → e < 2 ^ 15 →
            ∃ t, exec (.swpt gd i) s = .next t ∧ frame t ∧ t.ctx s.here = { c.complete 2 with variant := v, pc := e % 2 ^ 14 }))

/-- 06 R161, 01 R20: PARK ends a task whose queues, commands, copies and posted writes are done; until then it blocks. The docent parks at
once, and stands at its PARK until a doorbell (13 R282, log entry 54); a report owed to it it takes there (03 R61). -/
def Obligations.ParkEndsTask : Prop :=
  ∀ (s : State) (gd : Guard) (task : Task), s.runs gd [] →
    let c := s.ctx s.here
    let idle : Prop := (∀ k ∈ engineKinds, (s.stream (s.here.agent k)).queue = []) ∧ c.copies = []
      ∧ ∀ p ∈ (s.core s.here.coreId).posted, p.agent.ctx = s.here → p.drop = true
    (s.docent = true → c.reports = [] → ∃ t, exec (.park gd) s = .next t ∧ t.ctx s.here = { c with park := true } ∧ s.ScuOnly t)
    ∧ (∀ v l, c.reports = v :: l → c.copies = [] →
        exec (.park gd) s = .next ((s.setCtx s.here { c with reports := l }).trap s.here 0 0x07 v))
    ∧ (s.docent = false → s.task s.here = some task → c.reports = [] → idle → ∃ t, exec (.park gd) s = .next t
        ∧ t.task s.here = some { task with parked := true } ∧ t.ctx s.here = { c with blocked := false, wd := 0 } ∧ s.ScuPaid t
        ∧ { t with ctxs := s.ctxs, cores := s.cores, tasks := s.tasks } = s ∧ ∀ x, x ≠ s.here → t.task x = s.task x)
    ∧ (s.docent = false → c.reports = [] → (∀ y ∈ c.copies, y.fault = none) → ¬idle →
        exec (.park gd) s = .next (s.beginWait c.blocked))

/-- 06 R162, 05 R100: TRAP and BRK take the trap of cause 0x0D, standing after the instruction, with the code, or 0x400 more, as its value,
the SCU bucket charged (log entry 57).
An illegal word takes the trap of cause 0x01 with the word as its value, before any effect, in the SCU and in an engine with a current
command. -/
def Obligations.SoftwareAndIllegalTraps : Prop :=
  ∀ (s : State) (gd : Guard) (v : Nat),
    let after := (s.charge s.here.coreId 0 1).modCtx s.here (fun x => x.complete 2)
    (s.runs gd [] → exec (.trap gd v) s = .next (after.trap s.here 0 0x0D (BitVec.ofNat 64 v))
      ∧ exec (.brk gd v) s = .next (after.trap s.here 0 0x0D (BitVec.ofNat 64 (0x400 + v))))
    ∧ (s.agent.kind = .scu → exec (.illegalInstruction v) s = .next (s.trap s.agent.ctx 0 0x01 (BitVec.ofNat 64 v)))
    ∧ (s.agent.kind ≠ .scu → (s.stream s.agent).current ≠ none →
        exec (.illegalInstruction v) s = .next (s.trap s.agent.ctx s.agent.kind.num 0x01 (BitVec.ofNat 64 v)))

/-! ### Taking a trap and returning from one -/

/-- 13 R281, 16 R353: the first trap of a task that TDLG gives to its own handler, with its window open and a depth to spare, freezes the
task and enters the handler: PC is TVEC, the trap registers hold the resume point, the cause, the value, the report's address and the
source (a trap from elsewhere waits for the end of an access that the context has issued, R282), DEPTH is one more and the window closed. The general registers and every other context are as before. -/
def Obligations.TrapEntersOwnHandler : Prop :=
  ∀ (s : State) (c : CtxId) (src cause : Nat) (v : Word) (t : Task),
    let x := s.ctx c
    let u := s.trap c src cause v
    c.ctx < 4 → src < 6 → s.task c = some t → t.frozen = false → wbit (s.core c.coreId).tdlg cause = true → x.wopen = true → x.depth < 15 →
    (src = 0 ∨ x.parked = .no) →
      u.ctx c = { x with blocked := false, wd := 0, remote := none, parked := .no, pend := none, yielded := false, cmdTarget := none, park := false,
                         xfer := none, pc := x.tvec, tpc := x.resumePoint, tcause := cause, tval := v, trep := c.core * 0x200000 + 0x17F000 + c.ctx * 0x100, src := src,
                         slotn := c.ctx, depth := x.depth + 1, wopen := false }
      ∧ (∀ y, y ≠ c → u.ctx y = s.ctx y)
      ∧ ∃ t', u.task c = some t' ∧ t'.frozen = true ∧ t'.inHandler = true ∧ t'.frozenSrc = src ∧ t'.frozenCause = cause

/-- 13 R281: a trap of a task that its own handler may not take is written into its trap registers and entered into the docent, when DD gives
it the cause and its window is open. The task's DEPTH and PC stay. A docent's own trap enters the docent. -/
def Obligations.TrapEntersDocent : Prop :=
  ∀ (s : State) (c : CtxId) (src cause : Nat) (v : Word) (t : Task),
    let x := s.ctx c
    let dc : CtxId := ⟨c.die, c.core, 4⟩
    let d := s.ctx dc
    let u := s.trap c src cause v
    let report := c.core * 0x200000 + 0x17F000 + c.ctx * 0x100
    let entered (y : Ctx) : Ctx := { y with blocked := false, wd := 0, remote := none, parked := .no, pend := none, yielded := false, cmdTarget := none,
                                            park := false, xfer := none, pc := y.tvec, tpc := y.resumePoint, tcause := cause, tval := v, trep := report,
                                            src := src, slotn := c.ctx, depth := y.depth + 1, wopen := false }
    (c.ctx = 4 → x.wopen = true → x.depth < 15 → u.ctx c = entered x ∧ (∀ y, y ≠ c → u.ctx y = s.ctx y) ∧ u.tasks = s.tasks) ∧
    (c.ctx < 4 → src < 6 → s.task c = some t → t.frozen = false →
    (wbit (s.core c.coreId).tdlg cause = false ∨ x.wopen = false ∨ 15 ≤ x.depth) →
    wbit (s.core c.coreId).tdlg (32 + cause) = true → d.wopen = true → d.depth < 15 → ((s.core c.coreId).docBusy = false ∨ d.park = false) →
    (src = 0 ∨ x.parked = .no ∧ x.pend = none) → d.parked = .no → d.pend = none →
      u.ctx dc = entered d
      ∧ u.ctx c = { x with blocked := false, wd := 0, remote := none, parked := .no, pend := none, yielded := false, cmdTarget := none,
                           tpc := x.resumePoint, tcause := cause, tval := v, trep := report, src := src }
      ∧ ∃ t', u.task c = some t' ∧ t'.frozen = true ∧ t'.inHandler = false)

/-- 13 R281, R283: a trap that neither may take is posted to the Curator: the supervisor queue's write count rises by one, its entry holds
the value, the cause, the place and the resume point, and the supervisor is interrupted. -/
def Obligations.TrapIsPosted : Prop :=
  ∀ (s : State) (c : CtxId) (src cause : Nat) (v : Word) (t : Task),
    let x := s.ctx c
    let u := s.trap c src cause v
    let at_ := 2 ^ 51 + (s.cur.tqbase + s.cur.tqwr % 4096 * 32)
    c.ctx < 4 → src = 0 → s.task c = some t → t.frozen = false → c.core < 64 → c.die < 12 → cause < 32 → cause ≠ 0x12 →
    wbit (s.core c.coreId).tdlg cause = false → wbit (s.core c.coreId).tdlg (32 + cause) = false →
    s.cur.tqSet = true → s.cur.tqrd = s.cur.tqwr → s.cur.tqwr < 2 ^ 32 - 1 → s.ecc = [] →
      u.cur.tqwr = s.cur.tqwr + 1 ∧ u.outbox = s.outbox ++ [.irqSupervisor]
      ∧ u.rdNat at_ 8 = v.toNat
      ∧ u.rdNat (at_ + 8) 8 = c.core * 0x200000 + 0x17F000 + c.ctx * 0x100 + cause * 2 ^ 32 + c.die * 2 ^ 40 + c.core * 2 ^ 44 + c.ctx * 2 ^ 50
      ∧ u.rdNat (at_ + 16) 8 = x.resumePoint.toNat ∧ u.rdNat (at_ + 24) 8 = s.cur.tqwr

/-- 16 R353-R354, 13 R282: a trap that finds its task frozen is recorded, at most four causes and a count saturating at 15, and delivered
nowhere. -/
def Obligations.LaterTrapIsRecorded : Prop :=
  ∀ (s : State) (c : CtxId) (src cause : Nat) (v : Word) (t : Task), c.ctx < 4 → s.task c = some t → t.frozen = true →
    (src ≠ 0 ∨ t.inHandler = false ∧ (s.ctx c).pend = none) →
      let u := s.trap c src cause v
      u.ctxs = s.ctxs ∧ u.cur = s.cur ∧ u.outbox = s.outbox
      ∧ u.task c = some { t with later := if t.later.length < 4 then t.later ++ [src * 256 + cause] else t.later,
                                 laterCount := min (t.laterCount + 1) 15 }

/-- 13 R278: TPC holds where a context stands: resuming at it gives back the program counter and the pending transfer. R286-R287: TREN opens
the window inside a handler; TRET returns to TPC with its pending transfer, one level up and with the window
open. Outside a handler both are illegal, and TRET in a delay slot. The return of a task to DEPTH 0 thaws it; after a trap of the SCU or a
request from outside, every engine goes on where it stopped. -/
def Obligations.HandlerReturn : Prop :=
  (∀ (x : Ctx), x.pc < 16384 → (∀ f, x.xfer = some f → f.tgt < 16384 ∧ (f.left = 1 ∨ f.left = 2)) →
    (x.resumeAt x.resumePoint).pc = x.pc ∧ (x.resumeAt x.resumePoint).xfer = x.xfer ∧ tpcBad x.resumePoint = false) ∧
  ∀ (s : State) (gd : Guard), s.runs gd [] →
    let c := s.ctx s.here
    let back : Ctx := { c.resumeAt c.tpc with depth := c.depth - 1, wopen := true, blocked := false, wd := 0 }
    (c.depth ≠ 0 → ∃ t, exec (.tren gd) s = .next t ∧ t.ctx s.here = { c.complete 2 with wopen := true } ∧ s.ScuOnly t)
    ∧ (c.depth ≠ 0 → c.xfer = none → tpcBad c.tpc = false → (s.docent = true ∨ 1 < c.depth) →
        ∃ t, exec (.tret gd) s = .next t ∧ t.ctx s.here = back ∧ s.ScuOnly t)
    ∧ (∀ i ∈ [Instr.tren gd, .tret gd], c.depth = 0 → c.xfer = none → exec i s = .next (s.trap s.here 0 0x01 (BitVec.ofNat 64 (encodeWord i))))
    ∧ (c.xfer ≠ none → exec (.tret gd) s = .next (s.trap s.here 0 0x01 (BitVec.ofNat 64 (encodeWord (.tret gd)))))
    ∧ (∀ t, s.docent = false → c.depth = 1 → c.xfer = none → tpcBad c.tpc = false → s.task s.here = some t →
        ∃ u t', exec (.tret gd) s = .next u ∧ u.task s.here = some t' ∧ t'.frozen = false ∧ t'.inHandler = false ∧ t'.later = []
          ∧ (u.ctx s.here).pc = wfld c.tpc 0 14 ∧ (u.ctx s.here).depth = 0 ∧ (u.ctx s.here).wopen = true
          ∧ (∀ i, (u.ctx s.here).reg i = c.reg i)
          ∧ (t.frozenSrc = 0 ∨ t.frozenSrc = 5 → ∀ k ∈ engineKinds,
              u.stream (s.here.agent k) = { s.stream (s.here.agent k) with faulting := false, atMark := false }))

/-- 13 R288: TSNAP writes the 64 words of a slot's snapshot, whose every field is given here, to the docent's own slice, and no other byte; the slot only
leaves what it was blocked on. It is a weak write: this where no write's order is open (log entry 7). That TSNAP waits while the slot has an access on
its way is the model's reading of R282 (log entry 94). -/
def Obligations.SnapshotOfSlot : Prop :=
  ∀ (s : State) (gd : Guard) (a b : Nat), s.runs gd [a, b] →
    let c := s.ctx s.here
    let slot := (c.reg a).toNat
    let dst := (c.reg b).toNat % 2 ^ 32
    let at_ := scratchAt s.here.die dst
    let z : CtxId := ⟨s.here.die, s.here.core, slot⟩
    let x := s.ctx z
    s.docent = true → slot < 4 → dst % 512 = 0 → dst / 0x200000 = s.here.core → dst % 0x200000 < 0x180000 → s.ecc = [] → s.strict →
    s.heldBack false false = false →
    (x.parked ≠ .no → exec (.tsnap gd a b) s = .next s)
    ∧ (x.parked = .no → ∃ t, exec (.tsnap gd a b) s = .next t ∧ t.ctx s.here = c.complete 2
        ∧ (∀ y, y ≠ s.here → y ≠ z → t.ctx y = s.ctx y)
        ∧ t.ctx z = { x with blocked := false, wd := 0, remote := none, parked := .no, pend := none, yielded := false, cmdTarget := none }
        ∧ (∀ y, (y < at_ ∨ at_ + 512 ≤ y) → t.rd y = s.rd y)
        ∧ (∀ i, i < 32 → (∀ y ∈ x.copies, y.reg = i → i = 0) → t.rdNat (at_ + 8 * i) 8 = (x.reg i).toNat)
        ∧ (∀ y ∈ x.copies, y.reg ≠ 0 → y.reg < 32 → (∀ y' ∈ x.copies, y'.reg = y.reg → y' = y) →
            t.rdNat (at_ + 8 * y.reg) 8 = (match y.fault with | some f => f.2.2 | none => y.n) % 2 ^ 64)
        ∧ t.rdNat (at_ + 0x100) 8 = x.tpc.toNat
        ∧ t.rdNat (at_ + 0x108) 8 = (slot * 2 ^ 12 + x.src * 2 ^ 8 + x.depth * 2 ^ 4 + (if x.wopen then 1 else 0)) % 2 ^ 64
        ∧ t.rdNat (at_ + 0x110) 8 = x.tcause % 2 ^ 64 ∧ t.rdNat (at_ + 0x118) 8 = x.tval.toNat
        ∧ t.rdNat (at_ + 0x120) 8 = x.trep % 2 ^ 64 ∧ t.rdNat (at_ + 0x128) 8 = x.tvec % 2 ^ 64
        ∧ (x.votes.length ≤ 8 →
            let v := t.rdNat (at_ + 0x130) 8
            v < 2 ^ 28 ∧ v / 2 ^ 16 % 16 = x.votes.length ∧ (∀ i, i < 16 → v.testBit i = x.cond i)
            ∧ ∀ i, i < 8 → v.testBit (20 + i) = x.votes.getD i false)
        ∧ (∀ i, (t.rdNat (at_ + 0x138) 8).testBit i = true ↔ i ≠ 0 ∧ i < 32 ∧ ∃ y ∈ x.copies, y.reg = i)
        ∧ (∀ i, i < 4 → t.rdNat (at_ + 0x140 + 2 * i) 2 = x.b.getD i 0 % 2 ^ 16)
        ∧ ∀ i, 0x148 ≤ i → i < 0x200 → t.rd (at_ + i) = 0)

/-- 13 R289: WAKE without REFLECT resumes a frozen task at its TPC at DEPTH 0; with REFLECT the recorded trap enters the task's own handler;
of a slot with no frozen task it has no effect. The trap that froze the task has been delivered (log entry 94). That a TPC under which a TRET would be
illegal (R287) makes WAKE itself illegal is the model's choice (log entry 110). -/
def Obligations.WakeResumes : Prop :=
  ∀ (s : State) (gd : Guard) (a : Nat) (t : Task), s.runs gd [a] → s.docent = true →
    let c := s.ctx s.here
    let v := (c.reg a).toNat
    let z : CtxId := ⟨s.here.die, s.here.core, v % 4⟩
    let x := s.ctx z
    x.pend = none →
    (v < 4 → (s.task z = none ∨ s.task z = some t ∧ t.frozen = false ∧ t.preempted = false) →
      ∃ u, exec (.wake gd a) s = .next u ∧ u.ctx s.here = c.complete 2 ∧ s.ScuOnly u)
    ∧ (v < 4 → s.task z = some t → (t.frozen = true ∨ t.preempted = true) → tpcBad x.tpc = true →
        exec (.wake gd a) s = .next (s.trap s.here 0 0x01 (BitVec.ofNat 64 (encodeWord (.wake gd a)))))
    ∧ (v < 4 → s.task z = some t → (t.frozen = true ∨ t.preempted = true) → tpcBad x.tpc = false →
        ∃ u t', exec (.wake gd a) s = .next u ∧ u.task z = some t' ∧ t'.frozen = false ∧ t'.preempted = false
          ∧ (u.ctx z).pc = wfld x.tpc 0 14 ∧ (u.ctx z).depth = 0 ∧ (u.ctx z).wopen = true ∧ u.ctx s.here = c.complete 2)
    ∧ (4 ≤ v → v < 8 → s.task z = some t → t.frozen = true → t.preempted = false → x.wopen = true → x.depth < 15 →
        ∃ u, exec (.wake gd a) s = .next u ∧ u.task z = some { t with inHandler := true } ∧ u.ctx s.here = c.complete 2
          ∧ u.ctx z = { x with blocked := false, wd := 0, remote := none, parked := .no, yielded := false, cmdTarget := none, park := false,
                               xfer := none, tpc := x.resumePoint, trep := s.here.core * 0x200000 + 0x17F000 + (v % 4) * 0x100, slotn := v % 4,
                               depth := x.depth + 1, wopen := false, pc := x.tvec })
    ∧ (8 ≤ v → exec (.wake gd a) s = .next (s.trap s.here 0 0x06 (c.reg a)))

/-! ### The vector engine -/

/-- 07 R165, R182: the integer and bitwise operations act lane by lane under the guard and change no other lane. Bad ECC words
are named by their addresses (StepKeepsForm), here and in the next statements. -/
def Obligations.IntegerLanes : Prop :=
  ∀ (s : State) (r : Rec) (gd : Guard) (d a b t : Nat), s.engineRuns r → t < 3 → s.rowsOpen [a, b] [d] →
    (∀ z ∈ s.ecc, z % 8 = 0) →
    let w := intTy t
    let x (j : Nat) : BitVec w := BitVec.ofNat w (lane (s.row a) w j)
    let y (j : Nat) : BitVec w := BitVec.ofNat w (lane (s.row b) w j)
    let ops : List (Instr × (BitVec w → BitVec w → Nat → BitVec w)) :=
      [(.viadd gd d a b t, fun x y _ => x + y), (.visub gd d a b t, fun x y _ => x - y), (.vimul gd d a b t, fun x y _ => x * y),
       (.vimax gd d a b t, fun x y _ => if x.toInt < y.toInt then y else x), (.vimin gd d a b t, fun x y _ => if y.toInt < x.toInt then y else x),
       (.vimaxn gd d a b t, fun x y _ => if x.toNat < y.toNat then y else x), (.viminn gd d a b t, fun x y _ => if y.toNat < x.toNat then y else x),
       (.vand gd d a b t, fun x y _ => x &&& y), (.vor gd d a b t, fun x y _ => x ||| y), (.vxor gd d a b t, fun x y _ => x ^^^ y),
       (.vandn gd d a b t, fun x y _ => x &&& ~~~y), (.vshl gd d a b t, fun x _ n => x <<< n), (.vshr gd d a b t, fun x _ n => x >>> n),
       (.vsha gd d a b t, fun x _ n => x.sshiftRight n)]
    ∀ e ∈ ops, s.LanesDone e.1 gd d w w (lanes w) 4 (s.ve s.agent.ctx) (fun j => ((e.2 (x j) (y j) ((y j).toNat % 256)).toNat, 0))

/-- 07 R179, R181, R183: packing, unpacking and the movements between lanes. -/
def Obligations.LaneMovement : Prop :=
  ∀ (s : State) (r : Rec) (gd : Guard) (d a b k t : Nat), s.engineRuns r → t < 3 → (∀ z ∈ s.ecc, z % 8 = 0) →
    let w := intTy t
    let l := lanes w
    let x (j : Nat) : Nat := lane (s.row a) w j
    let y (j : Nat) : Nat := lane (s.row b) w j
    let n := ((s.stream s.agent).a.getD k 0).toNat
    let v := s.ve s.agent.ctx
    (s.rowsOpen [a] [d] →
      s.LanesDone (.vmov gd d a t) gd d w w l 4 v (fun j => (x j, 0))
      ∧ s.LanesDone (.vbcast gd d a k t) gd d w w l 4 v (fun _ => (x (n % l), 0))
      ∧ s.LanesDone (.vslide gd d a k 0 t) gd d w w l 4 v (fun j => (if j + n < l then x (j + n) else 0, 0))
      ∧ s.LanesDone (.vslide gd d a k 1 t) gd d w w l 4 v (fun j => (if n ≤ j then x (j - n) else 0, 0))
      ∧ ∀ h, h < 2 → t < 2 →
          s.LanesDone (.vunpk gd d a h t) gd d w w l 4 v
            (fun j => (((BitVec.ofNat (w / 2) (lane (s.row a) (w / 2) (h * l + j))).signExtend w).toNat, 0)))
    ∧ (s.rowsOpen [] [d] → s.LanesDone (.viota gd d k t) gd d w w l 4 v (fun j => ((n + j) % 2 ^ w, 0)))
    ∧ (s.rowsOpen [a, b] [d] →
        s.LanesDone (.vshuf gd d a b t) gd d w w l 4 v (fun j => (x (y j % l), 0))
        ∧ (t < 2 → s.LanesDone (.vpack gd d a b t) gd d (w / 2) (w / 2) (2 * l) 4 v
            (fun j => (if j < l then x j % 2 ^ (w / 2) else y (j - l) % 2 ^ (w / 2), 0))))

/-- 07 R170-R174: the float operations give each lane the rounded exact result of its flushed operands, with its flags; the functions of
R174 are those 02 R49 fixes, a value that the brackets of the last precision leave open by the model's choice (log entry 58). The rounding itself
stands in RoundingKeepsEncodings; bad ECC words are named by their addresses (StepKeepsForm). Then R49's rows as values: the special inputs; negative inputs
without a root or logarithm; powers of two and integers, exact where the result is in range, an overflow above it, and below it in FP32 and BF16 a
zero with UF; and the hyperbolic tangent of a subnormal of FP32 or BF16. -/
def Obligations.FloatLanes : Prop :=
  (∀ (s : State) (r : Rec) (gd : Guard) (d a b t : Nat), s.engineRuns r → t < 3 → (∀ z ∈ s.ecc, z % 8 = 0) →
    let f := floatTy t
    let w := f.width
    let v := s.ve s.agent.ctx
    let c := v.cfg
    let bits (n j : Nat) : Nat := lane (s.row n) w j
    let x (n j : Nat) : Val := (f.decode (bits n j)).flush c.ftz f
    let dr := v.draws ((List.range (lanes w)).map (fun j => j * w / 8))
    let sum (j : Nat) (bad : Bool) (l : List Val) : Nat × Nat := if bad then (f.nanBits, flagIV) else f.sum c.mode (dr.1.getD j 0) c.ftz l
    let kept (n j : Nat) : Nat := keptBits f c.ftz (bits n j)
    let signed (n j : Nat) (neg : Bool) : Nat × Nat :=
      if (f.decode (kept n j)).isNan then (f.nanBits, 0) else (kept n j % 2 ^ (w - 1) + (if neg then 2 ^ (w - 1) else 0), 0)
    (s.rowsOpen [a, b] [d] →
      ∀ e ∈ ([(.vadd gd d a b t, fun j => sum j false [x a j, x b j]), (.vsub gd d a b t, fun j => sum j false [x a j, (x b j).negate]),
              (.vmul gd d a b t, fun j => sum j (infTimesZero (x a j) (x b j)) [(x a j).mul (x b j)])] : List (Instr × (Nat → Nat × Nat))),
        s.LanesDone e.1 gd d w w (lanes w) 4 dr.2 e.2)
    ∧ (s.rowsOpen [a, b, d] [d] →
        ∀ e ∈ ([(.vfma gd d a b t, fun j => sum j (infTimesZero (x a j) (x b j)) [(x a j).mul (x b j), x d j]),
                (.vfms gd d a b t, fun j => sum j (infTimesZero (x a j) (x b j)) [(x a j).mul (x b j), (x d j).negate])] :
                List (Instr × (Nat → Nat × Nat))),
          s.LanesDone e.1 gd d w w (lanes w) 8 dr.2 e.2)
    ∧ (s.rowsOpen [a, b] [d] →
        ∀ e ∈ ([(.vmax gd d a b t, fun j => (chooseBits f true (kept a j) (kept b j), 0)),
                (.vmin gd d a b t, fun j => (chooseBits f false (kept a j) (kept b j), 0))] : List (Instr × (Nat → Nat × Nat))),
          s.LanesDone e.1 gd d w w (lanes w) 4 v e.2)
    ∧ (s.rowsOpen [a] [d] →
        (∀ e ∈ ([(.vabs gd d a t, fun j => signed a j false), (.vneg gd d a t, fun j => signed a j (!(kept a j).testBit (w - 1))),
                 (.vclass gd d a t, fun j => (classOf f (bits a j), 0))] : List (Instr × (Nat → Nat × Nat))),
          s.LanesDone e.1 gd d w w (lanes w) 4 v e.2)
        ∧ ∀ e ∈ ([(.vrcp gd d a t, 3), (.vrsq gd d a t, 4), (.vexp2 gd d a t, 5), (.vlog2 gd d a t, 6), (.vtanh gd d a t, 7)] : List (Instr × Nat)),
            s.LanesDone e.1 gd d w w (lanes w) 8 v (fun j => special e.2 f c.ftz (x a j))))
  ∧ ∀ e ∈ ([(fp32, 0x7FC00000, 0x7F800000, 0x3F800000, 0x80000000), (fp16, 0x7E00, 0x7C00, 0x3C00, 0x8000), (bf16, 0x7FC0, 0x7F80, 0x3F80, 0x8000)] :
      List (Fmt × Nat × Nat × Nat × Nat)), ∀ ftz : Bool,
    let f := e.1
    let (nan, inf, one, minus) := e.2
    let top : Int := 2 ^ f.ebits - 2 - f.bias
    let word (k : Int) : Nat := (k + f.bias).toNat * 2 ^ f.fbits
    let power (k : Int) : Val := .fin (2 ^ f.fbits) (k - f.fbits)
    (∀ z ∈ ([(.nan, [(nan, 0), (nan, 0), (nan, 0), (nan, 0), (nan, 0)]),
             (.zero false, [(inf, flagDZ), (inf, flagDZ), (one, 0), (minus + inf, flagDZ), (0, 0)]),
             (.zero true, [(minus + inf, flagDZ), (minus + inf, flagDZ), (one, 0), (minus + inf, flagDZ), (minus, 0)]),
             (.inf false, [(0, 0), (0, 0), (inf, 0), (inf, 0), (one, 0)]),
             (.inf true, [(minus, 0), (nan, flagIV), (0, 0), (nan, flagIV), (minus + one, 0)])] : List (Val × List (Nat × Nat))),
      ∀ n, n < 5 → z.2[n]? = some (special (3 + n) f ftz z.1))
    ∧ (∀ m x : Int, m < 0 → special 4 f ftz (.fin m x) = (nan, flagIV) ∧ special 6 f ftz (.fin m x) = (nan, flagIV))
    ∧ (∀ k : Int, f.emin - f.fbits ≤ k → k ≤ top →
        (f.emin ≤ -k → -k ≤ top → special 3 f ftz (power k) = (word (-k), 0))
        ∧ (top < -k → special 3 f ftz (power k) = (inf, flagOF))
        ∧ (-k < f.emin → f ≠ fp16 → special 3 f ftz (power k) = (0, flagUF))
        ∧ (∀ h : Int, k = 2 * h → special 4 f ftz (power k) = (word (-h), 0))
        ∧ (f.decode (special 6 f ftz (power k)).1).eq (Val.ofInt k) = true ∧ (special 6 f ftz (power k)).2 = 0)
    ∧ (special 3 fp16 ftz (.fin 1024 5) = if ftz then (0, flagUF) else (0x0200, 0))
    ∧ (∀ (n : Int) (i : Nat), n ≠ 0 → i ≤ f.fbits → -2 ^ 11 < n → n < 2 ^ 11 →
        (f.emin ≤ n → n ≤ top → special 5 f ftz (.fin (n * 2 ^ i) (-i)) = (word n, 0))
        ∧ (top < n → special 5 f ftz (.fin (n * 2 ^ i) (-i)) = (inf, flagOF))
        ∧ (n < f.emin → f ≠ fp16 → special 5 f ftz (.fin (n * 2 ^ i) (-i)) = (0, flagUF)))
    ∧ ∀ m x : Int, f ≠ fp16 → m ≠ 0 → (m.natAbs.log2 : Int) + x < -126 →
        special 7 f ftz (.fin m x) = (if m < 0 then minus else 0, flagUF)

/-- 02 R30-R31, R38-R42, R45, 07 R170-R171: every encoding of a format that is not a NaN is the rounding of its own value, in every mode, with no
flag. `mag n` is the magnitude of encoding n, and above the largest that of the grid with an unbounded exponent. A value that is not 0 lies between two
neighbours of that grid and rounds as its mode says to one of them, with its own sign; above the largest finite magnitude it overflows, and a
subnormal or zero that is not exact sets UF. A sum of finite terms is the rounding of its exact value, a conversion to an integer rounds likewise
and is then clamped, and a maximum or minimum is one of its operands, in the order in which -0 is below +0. All values are taken times 2^K, for
every K that makes them whole. Then R170's special rows as values: a sum with a NaN, with infinities of two signs or of one, of zeros of one sign or of
two; and a product, exact where both factors are finite, signed by both, invalid for an infinity times a zero. -/
def Obligations.RoundingKeepsEncodings : Prop :=
  (∀ f ∈ [fp32, bf16, fp16, e4m3, e5m2, e2m1], ∀ (mode u : Nat), mode < 5 → u < 2 ^ 32 →
    (∀ bits, bits < 2 ^ f.width → (f.decode bits).isNan = false → f.round mode u false (f.decode bits) = (bits, 0))
    ∧ ∀ K : Nat, 0 < f.emin - f.fbits + K →
      let times (e : Int) : Nat := 2 ^ (e + K).toNat
      let mag (n : Nat) : Nat :=
        if n < 2 ^ f.fbits then n * times (f.emin - f.fbits)
        else (2 ^ f.fbits + n % 2 ^ f.fbits) * times (((n / 2 ^ f.fbits : Nat) : Int) - f.bias - f.fbits)
      let most : Nat := if f = e4m3 then 0x7E else if f = e2m1 then 7 else (2 ^ f.ebits - 1) * 2 ^ f.fbits - 1
      let away (neg : Bool) (n rest gap : Nat) : Prop := mode = 0 ∧ (gap < 2 * rest ∨ 2 * rest = gap ∧ n % 2 = 1)
        ∨ mode = 2 ∧ neg = true ∧ rest ≠ 0 ∨ mode = 3 ∧ neg = false ∧ rest ≠ 0 ∨ mode = 4 ∧ u < rest * 2 ^ 32 / gap
      let rounded (neg : Bool) (n rest gap k : Nat) : Prop := (away neg n rest gap → k = n + 1) ∧ (¬away neg n rest gap → k = n)
      (∀ bits m e, bits < 2 ^ f.width → f.decode bits = .fin m e →
        m * times e = (if bits.testBit (f.width - 1) then -1 else 1) * (mag (bits % 2 ^ (f.width - 1)) : Int) ∧ bits % 2 ^ (f.width - 1) ≤ most)
      ∧ (∀ (m e : Int) (ftz : Bool), m ≠ 0 → 0 ≤ e + K →
          let q := m.natAbs * times e
          let neg := decide (m < 0)
          let sign : Nat := if neg then 2 ^ (f.width - 1) else 0
          ∃ n k : Nat, mag n ≤ q ∧ q < mag (n + 1) ∧ rounded neg n (q - mag n) (mag (n + 1) - mag n) k
            ∧ f.round mode u ftz (.fin m e) =
              if most < k then
                (if f = e4m3 ∨ f = e2m1 then (sign + most, flagSA)
                 else if mode = 1 ∨ mode = 2 ∧ neg = false ∨ mode = 3 ∧ neg = true then (sign + most, flagOF)
                 else (sign + (2 ^ f.ebits - 1) * 2 ^ f.fbits, flagOF))
              else if ftz = true ∧ 0 < k ∧ k < 2 ^ f.fbits then (sign, flagUF)
              else (sign + k, if k < 2 ^ f.fbits ∧ q ≠ mag n then flagUF else 0))
      ∧ (∀ (terms : List Val) (ftz : Bool),
          let value (v : Val) : Int := match v with | .fin m e => m * times e | _ => 0
          let q := (terms.map value).sum
          (∀ v ∈ terms, v.isZero = true ∨ ∃ m e : Int, v = .fin m e ∧ m ≠ 0 ∧ 0 ≤ e + K) → (∃ v ∈ terms, v.isZero = false) →
            (q = 0 → f.sum mode u ftz terms = (if mode = 2 then 2 ^ (f.width - 1) else 0, 0))
            ∧ ∀ m e : Int, m ≠ 0 → 0 ≤ e + K → m * times e = q → f.sum mode u ftz terms = f.round mode u ftz (.fin m e))
      ∧ (∀ (m e lo hi : Int), m ≠ 0 → 0 ≤ e + K →
          let q := m.natAbs * times e
          ∃ n k : Nat, n * 2 ^ K ≤ q ∧ q < (n + 1) * 2 ^ K ∧ rounded (decide (m < 0)) n (q - n * 2 ^ K) (2 ^ K) k
            ∧ (let z : Int := if m < 0 then -(k : Int) else k
               convInt mode u lo hi (.fin m e) = if hi < z then (hi, flagSA) else if z < lo then (lo, flagSA) else (z, 0)))
      ∧ (∀ x y, x < 2 ^ f.width → y < 2 ^ f.width → (f.decode x).isNan = false → (f.decode y).isNan = false →
          let place (b : Nat) : Int := if b.testBit (f.width - 1) then -((b % 2 ^ (f.width - 1) : Nat) : Int) - 1 else b
          chooseBits f true x y = (if place x < place y then y else x) ∧ chooseBits f false x y = (if place y < place x then y else x)))
  ∧ (∀ e ∈ ([(fp32, 0x7FC00000, 0x7F800000, 0x80000000), (fp16, 0x7E00, 0x7C00, 0x8000), (bf16, 0x7FC0, 0x7F80, 0x8000)] : List (Fmt × Nat × Nat × Nat)),
      ∀ (mode u : Nat) (ftz : Bool) (l : List Val),
      let (nan, inf, minus) := e.2
      let sum := e.1.sum mode u ftz l
      e.1.nanBits = nan
      ∧ (Val.nan ∈ l → sum = (nan, 0))
      ∧ (Val.nan ∉ l → .inf false ∈ l → .inf true ∈ l → sum = (nan, flagIV))
      ∧ (∀ neg, Val.nan ∉ l → .inf neg ∈ l → .inf (!neg) ∉ l → sum = (if neg then minus + inf else inf, 0))
      ∧ (∀ neg, l ≠ [] → (∀ v ∈ l, v = .zero neg) → sum = (if neg then minus else 0, 0))
      ∧ ((∀ v ∈ l, v = .zero false ∨ v = .zero true) → .zero false ∈ l → .zero true ∈ l → sum = (if mode = 2 then minus else 0, 0)))
  ∧ ∀ x y : Val,
      (infTimesZero x y = true ↔ ∃ n z, x = .inf n ∧ y = .zero z ∨ x = .zero z ∧ y = .inf n)
      ∧ (x = .nan ∨ y = .nan ∨ infTimesZero x y = true → x.mul y = .nan)
      ∧ (∀ n z m e, (y = .inf z → (Val.inf n).mul y = .inf (n != z)) ∧ (y = .fin m e → m ≠ 0 → (Val.inf n).mul y = .inf (n != decide (m < 0)))
          ∧ (y = .fin m e → m ≠ 0 → y.mul (.inf n) = .inf (n != decide (m < 0))))
      ∧ (∀ n z m e, (y = .zero z → (Val.zero n).mul y = .zero (n != z)) ∧ (y = .fin m e → m ≠ 0 → (Val.zero n).mul y = .zero (n != decide (m < 0)))
          ∧ (y = .fin m e → m ≠ 0 → y.mul (.zero n) = .zero (n != decide (m < 0))))
      ∧ ∀ m e m' e' : Int, (Val.fin m e).mul (.fin m' e') = .fin (m * m') (e + e')

/-- 07 R176-R178, R184: conversions and block rescaling write elements of the destination's width, guarded at the wider one, N4X elements by
pairs; a reduction writes lane 0 from the lanes that are on. Then as values: the converted specials of 02 R44-R45 and what a finite value converts
to, by the roundings of RoundingKeepsEncodings; the byte that 02 R37 gives a pair, whose elements are a code, or an escape to the nearer power of
two, the larger of two; and a maximum or minimum of several encodings, a subnormal flushed and NaNs passed over. -/
def Obligations.ConversionsAndReductions : Prop :=
  (∀ (s : State) (r : Rec) (gd : Guard) (d a b t tq sf df : Nat), s.engineRuns r → t < 3 → tq < 4 → sf < 14 → df < 14 →
    (∀ z ∈ s.ecc, z % 8 = 0) →
    let v := s.ve s.agent.ctx
    let c := v.cfg
    let g := v.guard gd
    let w := max (codeWidth sf) (codeWidth df)
    let x (j : Nat) : Val := (sourceElem sf (s.row a) j).flush c.ftz (workingFmt sf)
    let dr := v.draws ((List.range (lanes w)).map (fun j => j * codeWidth df / 8))
    (s.rowsOpen [a] [d] →
      (df ≠ 8 → s.LanesDone (.vcvt gd d a sf df) gd d (codeWidth df) w (lanes w) 4 dr.2 (fun j => convElem df c.mode (dr.1.getD j 0) c.ftz (x j)))
      ∧ (df = 8 → s.LanesDone (.vcvt gd d a sf df) gd d 8 (2 * w) (lanes w / 2) 4 dr.2 (fun m => n4xEncode c.mode (x (2 * m)) (x (2 * m + 1)))))
    ∧ (s.rowsOpen [a, b] [d] →
        let code := vrqCode tq
        let w := codeWidth code
        let y (j : Nat) : Val := (sourceElem code (s.row a) j).scale (-((BitVec.ofNat 8 (lane (s.row b) 8 (j / 32))).toInt))
        let dr := v.draws ((List.range (lanes w)).map (fun j => j * w / 8))
        (tq ≠ 3 → s.LanesDone (.vrq gd d a b tq) gd d w w (lanes w) 4 dr.2 (fun j => convElem code c.mode (dr.1.getD j 0) false (y j)))
        ∧ (tq = 3 → s.LanesDone (.vrq gd d a b tq) gd d 8 (2 * w) (lanes w / 2) 4 dr.2
            (fun m => n4xEncode c.mode (y (2 * m)) (y (2 * m + 1)))))
    ∧ (s.rowsOpen [a] [d] →
        let f := floatTy t
        let parts (w : Nat) : List Nat := ((List.range (lanes w)).filter (laneOn g w)).map (lane (s.row a) w)
        let one := v.draws [0]
        let did (i : Instr) (w : Nat) (v' : Ve) (z : Nat × Nat) : Prop :=
          ∃ u : State, exec i s = .next (if c.trapping z.2 then (u.issued 8).trapAgent s.agent 0x0C (zx z.2) else u.issued 8)
            ∧ lane (u.row d) w 0 = z.1 % 2 ^ w ∧ (∀ i, w ≤ i → (u.row d).testBit i = (s.row d).testBit i)
            ∧ (∀ a, (a < s.rowAt s.agent.ctx d ∨ s.rowAt s.agent.ctx d + 512 ≤ a) → u.rd a = s.rd a)
            ∧ { u with mem := s.mem, ves := s.ves } = s ∧ u.ve s.agent.ctx = { v' with cfg := c.raise z.2 }
        did (.vredadd gd d a t) f.width one.2 (f.sum c.mode (one.1.getD 0 0) c.ftz ((parts f.width).map (fun x => (f.decode x).flush c.ftz f)))
        ∧ did (.vredmax gd d a t) f.width v (reduceChoose f true c.ftz (parts f.width), 0)
        ∧ did (.vredmin gd d a t) f.width v (reduceChoose f false c.ftz (parts f.width), 0)
        ∧ did (.vrediadd gd d a t) (intTy t) v ((parts (intTy t)).sum % 2 ^ intTy t, 0)))
  ∧ (∀ (mode u : Nat) (ftz : Bool),
      (∀ e ∈ ([(0, 0x7FC00000, 0x7F800000, 0x80000000), (1, 0x7FC0, 0x7F80, 0x8000), (2, 0x7E00, 0x7C00, 0x8000), (4, 0x7E, 0x7C, 0x80)] :
          List (Nat × Nat × Nat × Nat)), ∀ neg : Bool,
        convElem e.1 mode u ftz .nan = (e.2.1, 0) ∧ convElem e.1 mode u ftz (.inf neg) = (if neg then e.2.2.2 + e.2.2.1 else e.2.2.1, 0)
        ∧ convElem e.1 mode u ftz (.zero neg) = (if neg then e.2.2.2 else 0, 0))
      ∧ (∀ neg : Bool, convElem 3 mode u ftz .nan = (0x7F, 0) ∧ convElem 3 mode u ftz (.inf neg) = (if neg then 0xFE else 0x7E, flagSA)
          ∧ convElem 3 mode u ftz (.zero neg) = (if neg then 0x80 else 0, 0)
          ∧ convElem 5 mode u ftz .nan = (0, flagIV) ∧ convElem 5 mode u ftz (.inf neg) = (if neg then 15 else 7, flagSA)
          ∧ convElem 5 mode u ftz (.zero neg) = (if neg then 8 else 0, 0))
      ∧ (∀ e ∈ ([(0, fp32, true), (1, bf16, true), (2, fp16, true), (3, e4m3, false), (4, e5m2, false), (5, e2m1, false)] : List (Nat × Fmt × Bool)),
          ∀ m x : Int, convElem e.1 mode u ftz (.fin m x) = e.2.1.round mode u (ftz && e.2.2) (.fin m x))
      ∧ ∀ e ∈ ([(6, 8, -128, 127), (7, 4, -7, 7), (9, 32, -2 ^ 31, 2 ^ 31 - 1), (10, 16, -2 ^ 15, 2 ^ 15 - 1), (11, 32, 0, 2 ^ 32 - 1),
                (12, 16, 0, 2 ^ 16 - 1), (13, 8, 0, 255)] : List (Nat × Nat × Int × Int)),
          let bits (n : Int) : Nat := (n % 2 ^ e.2.1).toNat
          convElem e.1 mode u ftz .nan = (0, flagIV) ∧ convElem e.1 mode u ftz (.inf false) = (bits e.2.2.2, flagSA)
          ∧ convElem e.1 mode u ftz (.inf true) = (bits e.2.2.1, flagSA) ∧ (∀ z, convElem e.1 mode u ftz (.zero z) = (0, 0))
          ∧ ∀ m x : Int, convElem e.1 mode u ftz (.fin m x)
              = (bits (convInt mode u e.2.2.1 e.2.2.2 (.fin m x)).1, (convInt mode u e.2.2.1 e.2.2.2 (.fin m x)).2))
  ∧ (∀ (mode K : Nat) (x y : Val),
      let near (v : Val) : Int × Nat := convInt (if mode = 4 then 0 else mode) 0 (-7) 7 v
      let size (m e : Int) : Nat := m.natAbs * 2 ^ (e + K).toNat
      let code (v : Val) (c : Int) (fl : Nat) : Prop :=
        (near v = (c, fl) ∧ ∀ m e, v = .fin m e → fl = 0)
        ∨ c = -7 ∧ fl = flagSA ∧ ∃ m e, v = .fin m e ∧ m < 0 ∧ (near v).2 ≠ 0 ∧ 0 ≤ e + K ∧ 2 * size m e < 3 * 2 ^ (3 + K)
      let escape (v : Val) (p q fl : Nat) : Prop := ∃ (m e : Int) (r : Nat), v = .fin m e ∧ m ≠ 0 ∧ (near v).2 ≠ 0 ∧ 0 ≤ e + K ∧ q = size m e
        ∧ 3 * 2 ^ (r + K) ≤ 4 * q ∧ 2 * q < 3 * 2 ^ (r + K) ∧ (m < 0 → r ≠ 3) ∧ p = (if m < 0 then 8 else 0) + (min r 10 - 3)
        ∧ fl = if 10 < r then flagSA else 0
      let power (p : Nat) : Val := .fin (if 8 ≤ p then -1 else 1) ((p % 8 + 3 : Nat) : Int)
      let nibble (c : Int) : Nat := (c % 16).toNat
      (∀ c d fl gl, code x c fl → code y d gl → n4xEncode mode x y = (nibble d * 16 + nibble c, fl ||| gl))
      ∧ (∀ p q fl d gl, escape x p q fl → code y d gl → n4xEncode mode x y = (p * 16 + 8, fl ||| gl))
      ∧ (∀ c fl p q gl, code x c fl → escape y p q gl → n4xEncode mode x y = (8 * 16 + p, fl ||| gl))
      ∧ (∀ p q fl p' q' gl, escape x p q fl → escape y p' q' gl →
          n4xEncode mode x y = (if q < q' then 8 * 16 + p' else p * 16 + 8, fl ||| gl ||| flagSA))
      ∧ ∀ p, p < 16 → p ≠ 8 → n4xDecode (p * 16 + 8) false = power p ∧ n4xDecode (p * 16 + 8) true = .zero false
          ∧ n4xDecode (8 * 16 + p) true = power p ∧ n4xDecode (8 * 16 + p) false = .zero false)
  ∧ ∀ e ∈ ([(fp32, 0x7FC00000, 0x7F800000, 0x80000000), (fp16, 0x7E00, 0x7C00, 0x8000), (bf16, 0x7FC0, 0x7F80, 0x8000)] : List (Fmt × Nat × Nat × Nat)),
      ∀ (most ftz : Bool) (l : List Nat), (∀ b ∈ l, b < 2 ^ e.1.width) →
      let (nan, inf, minus) := e.2
      let some_ (b : Nat) : Prop := b % minus ≤ inf
      let kept (b : Nat) : Nat := if ftz = true ∧ b % minus < 2 ^ e.1.fbits then b / minus * minus else b
      let place (b : Nat) : Int := if minus ≤ b then -((b % minus : Nat) : Int) - 1 else b
      (l = [] → reduceChoose e.1 most ftz l = if most then minus + inf else inf)
      ∧ (l ≠ [] → (∀ b ∈ l, ¬some_ b) → reduceChoose e.1 most ftz l = nan)
      ∧ ((∃ b ∈ l, some_ b) →
          ∃ b ∈ l, some_ b ∧ reduceChoose e.1 most ftz l = kept b
            ∧ ∀ b' ∈ l, some_ b' → if most then place (kept b') ≤ place (kept b) else place (kept b) ≤ place (kept b'))

/-- 07 R180, 08 R195-R198: compares write a predicate pair, granule by granule under the guard; the predicate operations write one; VANY and
VALL send a vote to the SCU, or discard one a replay repeats. p15 is not written. -/
def Obligations.PredicatesAndVotes : Prop :=
  ∀ (s : State) (r : Rec) (gd : Guard) (a b t : Nat), s.engineRuns r → t < 3 →
    let c := s.agent.ctx
    let v := s.ve c
    let g := v.guard gd
    let f := floatTy t
    let preds (i : Instr) (cost : Nat) (p : Nat → BitVec 256) : Prop := ∃ u : State, exec i s = .next (u.issued cost)
      ∧ (∀ n, n < 16 → (u.ve c).pred n = if n = 15 then BitVec.allOnes 256 else p n) ∧ { u.ve c with p := v.p } = v
      ∧ (∀ x, x ≠ c → u.ve x = s.ve x) ∧ { u with ves := s.ves } = s
    let bitwise (w : Nat) (old : BitVec 256) (on : Nat → Bool) (i : Nat) : Bool :=
      let j := if w = 8 then 2 * i else i * 16 / w
      if g.getLsbD (j * w / 16) then on j else old.getLsbD i
    let pair (w q n : Nat) (on : Nat → Bool) : BitVec 256 :=
      if n = 2 * q then BitVec.ofNat 256 (bitsNat ((List.range 256).map (bitwise w (v.pred n) on)))
      else if n = 2 * q + 1 then BitVec.ofNat 256 (bitsNat ((List.range 256).map (bitwise w (v.pred n) (fun j => !on j))))
      else v.pred n
    (∀ q cc, q < 8 → cc < 6 → s.rowsOpen [a, b] [] →
      let x (n j : Nat) : Val := (f.decode (lane (s.row n) f.width j)).flush v.cfg.ftz f
      let z (n j : Nat) : BitVec (intTy t) := BitVec.ofNat (intTy t) (lane (s.row n) (intTy t) j)
      (cc < 5 → preds (.vcmpf gd q a b cc t) 4 (fun n => pair f.width q n (fun j =>
        [(x a j).eq (x b j), !(x a j).eq (x b j), (x a j).lt (x b j), (x a j).lt (x b j) || (x a j).eq (x b j),
         (x a j).isNan || (x b j).isNan].getD cc false)))
      ∧ preds (.vcmpi gd q a b cc t) 4 (fun n => pair (intTy t) q n (fun j =>
          [z a j == z b j, z a j != z b j, decide ((z a j).toInt < (z b j).toInt), decide ((z a j).toInt ≤ (z b j).toInt),
           decide ((z a j).toNat < (z b j).toNat), decide ((z a j).toNat ≤ (z b j).toNat)].getD cc false)))
    ∧ (∀ d, d < 16 →
        let x := v.pred a
        let y := v.pred b
        ∀ e ∈ [(Instr.pand gd d a b, x &&& y), (.por gd d a b, x ||| y), (.pxor gd d a b, x ^^^ y), (.pandn gd d a b, x &&& ~~~y)],
          preds e.1 2 (fun n => if n = d then (v.pred d &&& ~~~g) ||| (e.2 &&& g) else v.pred n))
    ∧ (∀ d lo hi, d < 16 → preds (.pset d lo hi) 2 (fun n => if n = d then BitVec.ofNat 256
        (bitsNat ((List.range 256).map (fun i => decide (lo ≤ i) && decide (i ≤ hi)))) else v.pred n))
    ∧ (let k := s.ctx c
       let w := intTy t
       let on := (List.range (lanes w)).filter (laneOn g w)
       let test (j : Nat) : Bool := (v.pred a).getLsbD (j * w / 16)
       ∀ e ∈ [(Instr.vany gd a t, on.any test), (.vall gd a t, on.all test)],
         (k.revote = 0 → k.votes.length < 8 →
           exec e.1 s = .next ((s.setCtx c { k with votes := k.votes ++ [e.2], voted := k.voted + 1 }).issued 2))
         ∧ (k.revote ≠ 0 → exec e.1 s = .next ((s.setCtx c { k with revote := k.revote - 1 }).issued 2))
         ∧ (k.revote = 0 → 8 ≤ k.votes.length → exec e.1 s = .next (s.modStream s.agent (fun x => { x with wait := .queueFull }))))

/-- 08 R186-R187, R191, R199, R202-R204: AADD and ALI write an address register of the pass, APAIL one with a pail slot's address; DWAIT waits
for a counter; VWIN moves the window; VCFG writes the configuration. -/
def Obligations.VectorControl : Prop :=
  ∀ (s : State) (r : Rec), s.engineRuns r →
    let c := s.agent.ctx
    let v := s.ve c
    let x := s.stream s.agent
    (∀ k i, k < 16 → i < 2 ^ 16 →
      let im : Word := (BitVec.ofNat 16 i).signExtend 64
      exec (.aadd k i) s = .next ((s.setStream s.agent { x with a := x.a.setIfInBounds k (x.a.getD k 0 + im) }).issued 2)
      ∧ exec (.ali k i) s = .next ((s.setStream s.agent { x with a := x.a.setIfInBounds k im }).issued 2))
    ∧ (∀ k h sd n key, k < 16 → sd < 2 → s.pail c (r.h.getD h 0) = .ok key → s.failedWord s.agent ((List.range 4).map (key + ·)) = none →
        n < wfld (s.word (key + 3)) 36 8 + 1 →
          let geom := s.word (key + 3)
          let slot := (wfld (s.word (key + 2)) (8 * sd) 8 + n) % (wfld geom 36 8 + 1)
          let at_ : Word := BitVec.ofNat 64 (2 ^ 63 + (wfld geom 0 32 + slot * 2 ^ (wfld geom 32 3 + 9)))
          exec (.apail k h sd n) s = .next ((s.setStream s.agent { x with a := x.a.setIfInBounds k at_ }).issued 2))
    ∧ (∀ d l, (v.counter d ≤ l → exec (.dwait d l) s = .next (s.issued 2))
        ∧ (l < v.counter d → exec (.dwait d l) s = .next (s.setStream s.agent { x with wait := .counter d })))
    ∧ (∀ t h, t < s.tileCount c → s.owned c t = false → exec (.vwin t h) s = .next ((s.setVe c { v with tile := t, half := h }).issued 2))
    ∧ (∀ t h, s.tileCount c ≤ t → exec (.vwin t h) s = .next (s.trapAgent s.agent 0x06 (BitVec.ofNat 64 t)))
    ∧ (∀ i, i < 2 ^ 16 →
        (exec (.vcfg 0 i) s = .next ((s.setVe c { v with cfg := { v.cfg with mode := i % 8, ftz := i.testBit 3, en := i / 16 % 32 } }).issued 2))
        ∧ (exec (.vcfg 1 i) s = .next ((s.setVe c { v with cfg := { v.cfg with seed := v.cfg.seed / 2 ^ 16 * 2 ^ 16 + i } }).issued 2))
        ∧ (let seed := i * 2 ^ 16 + v.cfg.seed % 2 ^ 16
           exec (.vcfg 2 i) s = .next ((s.setVe c { v with cfg := { v.cfg with seed := seed }, srSeed := seed, srAcc := r.acc, sr := [] }).issued 2))
        ∧ ∃ u : State, exec (.vcfg 3 i) s = .next (u.issued 2) ∧ { u with ves := s.ves } = s ∧ (∀ z, z ≠ c → u.ve z = s.ve z)
            ∧ { u.ve c with cfg := { (u.ve c).cfg with flags := v.cfg.flags } } = v
            ∧ ∀ n, n < 5 → (u.ve c).cfg.flags.testBit n = (v.cfg.flags.testBit n && !i.testBit n))

/-- 08 R188-R194: VLD, VST, VLDX and VSTX issue at once: the access is pending on its counter with its on bytes and their addresses, a
post-incremented address register moves, and no byte of memory changes; what of it lies in a window goes out as far as it may (03 R60).
With every lane off it does so whatever its address, its window and its rows hold; but every access stalls as if all its lanes were on, for a tile
that an engine owns and for a load pending into a row it stores to (05 R102). -/
def Obligations.VectorAccessIssues : Prop :=
  ∀ (s : State) (r : Rec) (gd : Guard) (d k b dc o p es : Nat), s.engineRuns r → k < 16 → p < 2 → es < 2 → dc < 8 →
    let c := s.agent.ctx
    let v := s.ve c
    let x := s.stream s.agent
    let g := v.guard gd
    let off : Word := (BitVec.ofNat 6 o).signExtend 64 * 512
    let base := x.a.getD k 0
    let at_ : Word := if p = 0 then base + off else base
    let n := if es = 0 then 4 else 2
    let on := (List.range (4096 / (8 * n))).filter (laneOn g (8 * n))
    let xj (j : Nat) : Word := base + BitVec.ofNat 64 (lane (s.row b) (8 * n) j * n)
    let runs : List Run := on.map (fun j => (j * n, xj j, n))
    let rowRuns : List Run := vmRuns (BitVec.allOnes 256) at_
    let laneRuns : List Run := (List.range (4096 / (8 * n))).map (fun j => (j * n, xj j, n))
    let bytes (row : Nat) : List (Nat × Word × Byte) := (on.map (fun j => (List.range n).map (fun i =>
      (j * n + i, xj j + BitVec.ofNat 64 i, BitVec.ofNat 8 (fld row (8 * (j * n + i)) 8))))).flatten
    let pending (u : State) (load wide : Bool) (ls : List (Run × VLoc)) (bs : List (Nat × Word × Byte)) : Prop :=
      let acc : VeAccess := ⟨s.nextId, dc, load, v.tile, 64 * v.half + d, x.epc, bs, [], [], [], [], false, none, bs.isEmpty, wide⟩
      (windowRuns ls = [] → u.ve c = ({ v with pend := v.pend ++ [acc] } : Ve).trim
        ∧ { u with ves := s.ves, nextId := s.nextId, streams := s.streams } = s)
      ∧ (windowRuns ls ≠ [] → ∃ y ∈ (u.ve c).pend, { y with pieces := [], want := [] } = acc)
      ∧ (∀ z, z ≠ c → u.ve z = s.ve z) ∧ s.nextId < u.nextId ∧ (∀ z, u.rd z = s.rd z) ∧ u.vault = s.vault ∧ u.ctxs = s.ctxs ∧ u.tasks = s.tasks
    let moved (u : State) : Prop := u.stream = (s.setStream s.agent { x with a := if p = 1 then x.a.setIfInBounds k (base + off) else x.a }).stream
    v.counter dc < 63 →
    (∀ ls, s.vCheckAll c true (vmRuns g at_) = .ok (some ls) → at_.toNat % 64 = 0 → s.rowsOpen [] [d] →
      s.aliasHeld c rowRuns = false →
      ∃ u : State, exec (.vld gd d k dc o p) s = .next (u.issued 2) ∧ moved u ∧ pending u true true ls (vmBytes g at_ 0))
    ∧ (∀ ls, s.vCheckAll c false (vmRuns g at_) = .ok (some ls) → at_.toNat % 64 = 0 → s.rowsOpen [d] [] →
        s.aliasHeld c rowRuns = false → v.aliasWaits rowRuns = false →
        ∃ u : State, exec (.vst gd d k dc o p) s = .next (u.issued 2) ∧ moved u ∧ pending u false true ls (vmBytes g at_ (s.row d)))
    ∧ (∀ ls, s.vCheckAll c true runs = .ok (some ls) → (∀ j ∈ on, (xj j).toNat % n = 0) → s.rowsOpen [b] [d] →
        s.aliasHeld c laneRuns = false →
        ∃ u : State, exec (.vldx gd d k b dc es) s = .next (u.issued 2) ∧ u.stream = s.stream ∧ pending u true false ls (bytes 0))
    ∧ (∀ ls, s.vCheckAll c false runs = .ok (some ls) → (∀ j ∈ on, (xj j).toNat % n = 0) → s.rowsOpen [b, d] [] →
        s.aliasHeld c laneRuns = false → v.aliasWaits laneRuns = false →
        ∃ u : State, exec (.vstx gd d k b dc es) s = .next (u.issued 2) ∧ u.stream = s.stream ∧ pending u false false ls (bytes (s.row d)))
    ∧ (g = 0 → s.aliasHeld c rowRuns = false →
        (s.rowsQuiet [] [d] → ∃ u : State, exec (.vld gd d k dc o p) s = .next (u.issued 2) ∧ moved u ∧ pending u true true [] [])
        ∧ (s.rowsQuiet [d] [] → v.aliasWaits rowRuns = false →
            ∃ u : State, exec (.vst gd d k dc o p) s = .next (u.issued 2) ∧ moved u ∧ pending u false true [] []))
    ∧ (on = [] → s.aliasHeld c laneRuns = false →
        (s.rowsQuiet [b] [d] → ∃ u : State, exec (.vldx gd d k b dc es) s = .next (u.issued 2) ∧ u.stream = s.stream ∧ pending u true false [] [])
        ∧ (s.rowsQuiet [b, d] [] → v.aliasWaits laneRuns = false →
            ∃ u : State, exec (.vstx gd d k b dc es) s = .next (u.issued 2) ∧ u.stream = s.stream ∧ pending u false false [] []))
    ∧ (let stalls (i : Instr) (w : Wait) : Prop := exec i s = .next (s.setStream s.agent { x with wait := w })
       (g = 0 → s.rowsQuiet [] [d] → s.aliasHeld c rowRuns = true → stalls (.vld gd d k dc o p) .interlock)
        ∧ (g = 0 → s.rowsQuiet [d] [] → s.aliasHeld c rowRuns = true → stalls (.vst gd d k dc o p) .interlock)
        ∧ (g = 0 → s.rowsQuiet [d] [] → s.aliasHeld c rowRuns = false → v.aliasWaits rowRuns = true → stalls (.vst gd d k dc o p) (.counter dc))
        ∧ (on = [] → s.rowsQuiet [b] [d] → s.aliasHeld c laneRuns = true → stalls (.vldx gd d k b dc es) .interlock)
        ∧ (on = [] → s.rowsQuiet [b, d] [] → s.aliasHeld c laneRuns = true → stalls (.vstx gd d k b dc es) .interlock)
        ∧ (on = [] → s.rowsQuiet [b, d] [] → s.aliasHeld c laneRuns = false → v.aliasWaits laneRuns = true →
            stalls (.vstx gd d k b dc es) (.counter dc)))

/-- 08 R188-R191: an access completes once nothing holds it: a load's row takes the bytes at its addresses, a store's addresses take its
bytes, no other byte changes, and it no longer counts. This where no write's order is open (log entry 7). -/
def Obligations.AccessCompletes : Prop :=
  ∀ (s : State) (c : CtxId) (x : VeAccess) (hs : List (Nat × Nat × Byte)) (u : State), s.strict →
    let row := s.accessRow c x
    let underLoad : Prop := ∃ y ∈ (s.ve c).pend, y.load = true ∧ y.done = false ∧ ∃ b ∈ y.bytes, ∃ h ∈ hs, s.accessRow c y + b.1 = h.2.1
    (s.ve c).pend.head? = some x → x.done = false → x.parked = false → x.failed = none → x.pieces = [] → x.want = [] → x.got = [] → x.seen = [] →
    (∀ p ∈ (s.core c.coreId).posted, p.access ≠ some x.id) → s.homes c x.load x.bytes none [] = .homes hs u →
    ((x.load = true → ¬underLoad → s.Sound (hs.map (fun h => h.2.1)) ∧ s.Sound (hs.map (fun h => row + h.1)) ∧ (hs.map (fun h => h.1)).Nodup →
        ∃ t, exec (.accessComplete c x.id) s = .next t ∧ (∀ h ∈ hs, t.rd (row + h.1) = s.rd h.2.1)
          ∧ (∀ a, (∀ h ∈ hs, a ≠ row + h.1) → t.rd a = s.rd a) ∧ ∀ y ∈ (t.ve c).pend, y.id = x.id → y.done = true)
      ∧ (x.load = false → s.Sound (hs.map (fun h => h.2.1)) ∧ (hs.map (fun h => h.2.1)).Nodup →
        ∃ t, exec (.accessComplete c x.id) s = .next t ∧ (∀ h ∈ hs, t.rd h.2.1 = h.2.2)
          ∧ (∀ a, (∀ h ∈ hs, a ≠ h.2.1) → t.rd a = s.rd a) ∧ ∀ y ∈ (t.ve c).pend, y.id = x.id → y.done = true))

/-! ### What the engines share -/

/-- 03 R65, R68, R70, 08 R200-R201, 09 R225, 10 R242: the vault forms of the engines on words and pails of the task's allotment, where their
replay counts do not suppress them (16 R361). A wait that is satisfied issues, any other keeps the stream where it stands; a decrement, a publish and a release
take at once and stage what their mark adds, a publish and a release with the slot it begins at; a signal is staged whole. On a byte barrier a wait tests PHASE, a signal adds at least 1, and a
decrement traps; a word of MODE 4 to 7 is no semaphore. This where no write's order is open: what these forms acquire is as of the SCU's (log entry 7). -/
def Obligations.EngineVaultForms : Prop :=
  ∀ (s : State) (r : Rec) (t : Task) (gd : Guard) (e n key : Nat), s.engineRuns r → s.agent.kind ≠ .scu → s.order = {} →
    let a := s.agent
    let c := a.ctx
    let x := s.stream a
    let k := a.kind.num
    let p := t.p.getD k 0 + 1
    s.task c = some t → (s.word (t.countKey c.die k)).toNat < p → x.guardOn r gd = true →
    let did (i : Instr) (cost : Nat) (vault : State → Prop) (staged : List Staged) : Prop :=
      ∃ u : State, exec i s = .next (u.issued cost) ∧ u.task c = some { t with p := t.p.setIfInBounds k p }
        ∧ (∀ y, y ≠ c → u.task y = s.task y) ∧ u.stream a = { x with staged := x.staged ++ staged } ∧ (∀ y, y ≠ a → u.stream y = s.stream y)
        ∧ vault u ∧ (∀ y, u.rd y = s.rd y)
        ∧ { u with tasks := s.tasks, streams := s.streams, vault := s.vault, vaultBad := s.vaultBad, waiters := s.waiters } = s
    let same (u : State) : Prop := ∀ z, u.word z = s.word z
    let stays (i : Instr) (w : Wait) : Prop := exec i s = .next (s.setStream a { x with wait := w })
    (s.handle c true (r.e.getD e 0) = .ok key → s.failedWord a [key] = none → semMode (s.word key) = 0 →
      let w := s.word key
      (∀ i ∈ [(Instr.vwait e n 0, 2), (.mwait gd 0 e n, 1), (.cwait gd 0 e n, 1), (.xwait gd 0 e n, 1)],
        ((n : Int) ≤ semCount w → did i.1 i.2 same []) ∧ (semCount w < n → stays i.1 (.vault e)))
      ∧ (1 ≤ n → (n : Int) ≤ semCount w → (∀ y ∈ s.waiters, y.1 ≠ key) →
          ∀ i ∈ [(Instr.vwait e n 1, 2), (.mwait gd 1 e n, 1), (.cwait gd 1 e n, 1), (.xwait gd 1 e n, 1)],
            did i.1 i.2 (fun u => ∀ z, u.word z = if z = key then mkSem (semExpect w) 0 (semPhase w) (semCount w - n) else s.word z)
              [.dec (r.e.getD e 0) n true])
      ∧ ∀ i ∈ [(Instr.vsig e n, 2), (.msig gd e n, 1), (.csig gd e n, 1), (.xsig gd e n, 1)],
          did i.1 i.2 same [.add (r.e.getD e 0) (BitVec.ofNat 16 n).toInt true])
    ∧ (s.handle c true (r.e.getD e 0) = .ok key → s.failedWord a [key] = none →
        let mode := semMode (s.word key)
        let h := r.e.getD e 0
        let waits : List (Instr × Nat) := [(.vwait e n 0, 2), (.mwait gd 0 e n, 1), (.cwait gd 0 e n, 1), (.xwait gd 0 e n, 1)]
        let takes : List Instr := [.vwait e n 1, .mwait gd 1 e n, .cwait gd 1 e n, .xwait gd 1 e n]
        let signals : List (Instr × Nat) := [(.vsig e n, 2), (.msig gd e n, 1), (.csig gd e n, 1), (.xsig gd e n, 1)]
        let traps (i : Instr) : Prop := exec i s = .next (s.trapAgent a 0x09 (BitVec.ofNat 64 h))
        (mode = 1 →
          (∀ i ∈ waits, (semPhase (s.word key) = decide (n % 2 = 1) → did i.1 i.2 same [])
            ∧ (semPhase (s.word key) ≠ decide (n % 2 = 1) → stays i.1 (.vault e)))
          ∧ (∀ i ∈ takes, traps i)
          ∧ ∀ i ∈ signals, (1 ≤ (BitVec.ofNat 16 n).toInt → did i.1 i.2 same [.add h (BitVec.ofNat 16 n).toInt true])
              ∧ ((BitVec.ofNat 16 n).toInt < 1 → traps i.1))
        ∧ (4 ≤ mode → (∀ i ∈ waits, traps i.1) ∧ (∀ i ∈ takes, traps i) ∧ ∀ i ∈ signals, traps i.1))
    ∧ (s.pail c (r.h.getD e 0) = .ok key → s.failedWord a ((List.range 4).map (key + ·)) = none →
        let geom := s.word (key + 3)
        let slots := wfld geom 36 8 + 1
        1 ≤ n → n ≤ slots →
        (∀ side, side < 2 →
          ∀ i ∈ [((if side = 0 then Instr.pailw e n else .pailf e n), 2), (.mwait gd (2 + side) e n, 1), (.cwait gd (2 + side) e n, 1),
                 (.xwait gd (2 + side) e n, 1)],
            ((n : Int) ≤ semCount (s.word (key + side)) → did i.1 i.2 same [])
            ∧ (semCount (s.word (key + side)) < n → stays i.1 (.pail e)))
        ∧ ∀ side, side < 2 → (n : Int) ≤ semCount (s.word (key + 1 - side)) →
            ∀ i ∈ [(Instr.paila e n side, 2), (.madv gd e side n, 1), (.cadv gd e side n, 1), (.xadv gd e side n, 1)],
              did i.1 i.2
                (fun u => semCount (u.word (key + 1 - side)) = semCount (s.word (key + 1 - side)) - n
                  ∧ u.word (key + side) = s.word (key + side) ∧ u.word (key + 3) = geom
                  ∧ wfld (u.word (key + 2)) (8 * side) 8 = (wfld (s.word (key + 2)) (8 * side) 8 + n) % slots
                  ∧ wfld (u.word (key + 2)) (8 - 8 * side) 8 = wfld (s.word (key + 2)) (8 - 8 * side) 8
                  ∧ ∀ z, (z < key ∨ key + 4 ≤ z) → u.word z = s.word z)
                (let first := wfld (s.word (key + 2)) (8 * side) 8
                 [if side = 0 then .publish (r.h.getD e 0) n first true else .release (r.h.getD e 0) n first true]))

/-- 05 R101-R105: BLK opens a block; an instruction of an engine that issues moves to the next word of the body, to its first again while
repeats are left, to the next block while the record has more, to the next pass of the nest, or to the mark that is due; a guarded instruction
whose guard is off has no other effect. MARK asks for a mark. The cost of a BLK, 2 in the VE and 1 elsewhere, is the model's choice (log entry
57). -/
def Obligations.EngineControl : Prop :=
  ∀ (s : State) (r : Rec) (gd : Guard), s.engineRuns r → s.agent.kind ≠ .scu →
    let a := s.agent
    let x := s.stream a
    let stepped : Machine.Stream := { x with epc := x.epc + 2, wait := .none, atMark := false, issues := x.issues + 1 }
    (∀ cost,
      let t := s.issued cost
      let k := s.core a.coreId
      let ends := x.inBody = true ∧ x.bodyStart + x.bodyLen ≤ x.epc + 2
      let due : Bool := x.levelDue r || x.markAsked || x.markDue || (a.kind == .me && s.asked a.ctx)
      let owns := a.kind = .me ∧ (s.me a.ctx).owned ≠ []
      (¬ends → t.stream a = stepped)
      ∧ (ends → 1 < x.repsLeft → t.stream a = { stepped with epc := x.bodyStart, repsLeft := x.repsLeft - 1 })
      ∧ (ends → x.repsLeft ≤ 1 → x.blocks + 1 < r.bcnt → t.stream a = { stepped with inBody := false, blocks := x.blocks + 1 })
      ∧ (ends → x.repsLeft ≤ 1 → r.bcnt ≤ x.blocks + 1 → due = true → ¬owns → t.stream a = { stepped with atEnd := true, inBody := false })
      ∧ (∀ idx, ends → x.repsLeft ≤ 1 → r.bcnt ≤ x.blocks + 1 → (due = false ∨ owns) → nestNext x.idx r.bound = some idx →
          let next : Machine.Stream := { stepped with idx := idx, a := passRegs r idx, epc := r.iaddr, inBody := false, blocks := 0, atEnd := false }
          t.stream a = { next with markAsked := false, prevRow := some ((r.cbase + x.idx.getD r.clvl 0) % 16), markDue := due })
      ∧ ((ends ∧ x.repsLeft ≤ 1 ∧ r.bcnt ≤ x.blocks + 1 → (due = true ∧ ¬owns) ∨ nestNext x.idx r.bound ≠ none) →
          (∀ y, y ≠ a → t.stream y = s.stream y) ∧ { t with streams := s.streams, cores := s.cores } = s
          ∧ (∀ y, y ≠ a.coreId → t.core y = s.core y)
          ∧ (let paid := k.buckets.setIfInBounds a.kind.num ((k.buckets.getD a.kind.num {}).spend cost)
             t.core a.coreId = { k with buckets := paid, wd := k.wd.setIfInBounds (a.kind.num - 1) 0 })))
    ∧ (∀ len rep, x.inBody = false →
        let opened : Machine.Stream := { x with epc := x.epc + 2, inBody := true, bodyStart := x.epc + 2, bodyLen := len, repsLeft := rep }
        let k := s.core a.coreId
        let paid := k.buckets.setIfInBounds a.kind.num ((k.buckets.getD a.kind.num {}).spend (if a.kind = .ve then 2 else 1))
        ∃ t, exec (.blk len rep) s = .next t ∧ t.stream a = { opened with issues := x.issues + 1, atMark := false }
          ∧ (∀ y, y ≠ a → t.stream y = s.stream y) ∧ { t with streams := s.streams, cores := s.cores } = s
          ∧ (∀ y, y ≠ a.coreId → t.core y = s.core y)
          ∧ t.core a.coreId = { k with buckets := paid, wd := k.wd.setIfInBounds (a.kind.num - 1) 0 })
    ∧ (∀ len rep, x.inBody = true → exec (.blk len rep) s = .next (s.trapAgent a 0x01 (BitVec.ofNat 64 (encodeWord (.blk len rep)))))
    ∧ (a.kind = .ve → (((s.ve a.ctx).guard gd) ≠ 0 → exec (.mark gd) s = .next ((s.setStream a { x with markAsked := true }).issued 2))
        ∧ (((s.ve a.ctx).guard gd) = 0 → exec (.mark gd) s = .next (s.issued 2)) ∧ exec (.nop gd) s = .next (s.issued 2))
    ∧ (a.kind ≠ .ve → x.guardOn r gd = true →
        exec (.mark gd) s = .next ((s.setStream a { x with markAsked := true }).issued 1) ∧ exec (.nop gd) s = .next (s.issued 1))
    ∧ (a.kind ≠ .ve → x.guardOn r gd = false → ∀ b c d e f g,
        ∀ i ∈ [Instr.mark gd, .nop gd, .mcel gd b c, .mldw gd b, .mpln gd b, .mma gd b c d e f, .mmab gd b c d e, .mret gd b, .mzro gd b,
               .mcat gd b c, .mwait gd b c d, .madv gd b c d, .msig gd b c, .cmov gd b c d e f g, .cfil gd b c d e f, .cpush gd b c, .cpop gd b c,
               .cfol gd, .csig gd b c, .cwait gd b c d, .cadv gd b c d, .xsnd gd b c d e, .xred gd b c d, .xcad gd b c d e, .xbcs gd b c d e,
               .xgat gd b c d, .xsig gd b c, .xwait gd b c d, .xadv gd b c d],
          exec i s = .next (s.issued 0))

/-! ### The matrix engine -/

/-- 09 R210-R222: MCEL binds a name to the tag of an image, which it enters in the cellar where it is not there, waiting while what is pinned leaves it
no room; the names and planes of its slot alone may not fill the cellar. MLDW binds the inactive plane and MPLN chooses the active one;
MZRO zeroes a tile and owns it, MRET commits it; MCAT takes a legal row; MMA and MMAB issue a pass with what the catalogue row and the
active plane say, in the churn when it may merge. What these read of memory is where no write's order is open (log entry 7). -/
def Obligations.MatrixForms : Prop :=
  ∀ (s : State) (r : Rec) (gd : Guard), s.engineRuns r → (s.stream s.agent).guardOn r gd = true → s.order = {} →
    let c := s.agent.ctx
    let co := s.agent.coreId
    let x := s.stream s.agent
    let m := s.me c
    let op (n : Nat) : Word := x.a.getD n 0
    let quiet (u : State) : Prop := u.mem = s.mem ∧ u.stream = s.stream ∧ u.vault = s.vault ∧ u.tasks = s.tasks ∧ u.ctxs = s.ctxs ∧ u.ves = s.ves
      ∧ ∀ z, z ≠ c → u.me z = s.me z
    (∀ n k as ms u v e, (op k).toNat < 2 ^ 56 → (op k).toNat % 64 = 0 → s.mapVA co .me (s.asid c) (op k).toNat 64 true false = .ok as u →
      u.Sound as → u.mapVA co .me (u.asid c) ((op k).toNat + 64) (imgHead (leNat ((as.map u.rd).take 4))).mapLen true false = .ok ms v →
      v.Sound ms → imgMalformed (as.map u.rd) (ms.map v.rd) = false → v.agent = s.agent → v.me c = m →
      let tag := as.headD 0 - vatAt co.die 0
      let word := leNat ((as.map u.rd).take 4)
      let lines := (imgHead word).len
      let mapLen := (imgHead word).mapLen
      (mapLen = 0 ∨ (op k).toNat + 64 + mapLen ≤ 2 ^ 56) →
      let bound (w : State) : Prop := w.me c = { m with names := m.names.filter (fun y => y.name != n) ++ [⟨n, tag, false⟩] } ∧ w.mem = v.mem
      ((v.core co).cellar.find? (fun y => y.tag == tag && !y.failed) = some e →
        ∃ w : State, exec (.mcel gd n k) s = .next (w.issued 1) ∧ bound w)
      ∧ ((v.core co).cellar.find? (fun y => y.tag == tag && !y.failed) = none →
          let own := (v.core co).cellar.filter (fun y => !y.failed && v.pinners co s.agent.slot (some n) y.tag == [s.agent.slot])
          let others := (v.core co).cellar.filter (fun y => y.tag != tag)
          let unnamed := v.setMe c { m with names := m.names.filter (fun y => y.name != n) }
          let fills : Prop := 1024 < cellarLines own + lines ∨ 8 ≤ own.length
          let waits : Prop := x.wait = .counter 0
          (fills → ¬waits → exec (.mcel gd n k) s = .next (v.trapAgent s.agent 0x06 (BitVec.ofNat 64 n)))
          ∧ ((¬fills ∨ waits) → cellarFits others lines = true →
              ∃ w : State, exec (.mcel gd n k) s = .next (w.issued 1) ∧ bound w
                ∧ (w.core co).cellar = others ++ [⟨tag, v.asid c, some (op k).toNat, word, lines, none, false, false, v.cycle, s.agent.slot⟩])
          ∧ ((¬fills ∨ waits) → cellarFits others lines = false →
              (∀ y ∈ others, y.failed = false → (v.core co).expanding y.tag = true ∨ unnamed.pinners co 4 none y.tag ≠ []) →
                exec (.mcel gd n k) s = .next (unnamed.modStream s.agent (fun y => { y with wait := .counter 0 })))))
    ∧ (∀ n y, m.names.find? (fun z => z.name == n) = some y → y.stale = false → s.tagFailed co y.tag = false →
        let h := imgHead (s.tagHeader co y.tag)
        let p : Bound := ⟨⟨y.tag, h.bfmt, h.kw⟩, false⟩
        ∃ u : State, exec (.mldw gd n) s = .next (u.issued 1) ∧ quiet u
          ∧ u.me c = if m.active = 0 then { m with plane1 := some p } else { m with plane0 := some p })
    ∧ (∀ n, m.names.find? (fun z => z.name == n) = none → exec (.mldw gd n) s = .next (s.trapAgent s.agent 0x06 (BitVec.ofNat 64 n)))
    ∧ (∀ p, p < 3 → exec (.mpln gd p) s = .next ((s.setMe c { m with active := if p = 2 then 1 - m.active else p }).issued 1))
    ∧ (∀ t, t < s.tileCount c → s.tileBusy c t = false → s.passing c t = false →
        ∃ u : State, exec (.mzro gd t) s = .next (u.issued 1) ∧ u.me c = { m with owned := m.owned.filter (fun o => o.1 != t) ++ [(t, none)] }
          ∧ (∀ y, y < 65536 → u.rd (tileAt co (s.tilePos c t) 0 + y) = 0)
          ∧ (∀ y, (y < tileAt co (s.tilePos c t) 0 ∨ tileAt co (s.tilePos c t) 0 + 65536 ≤ y) → u.rd y = s.rd y)
          ∧ { u with mem := s.mem, ecc := s.ecc, mes := s.mes } = s ∧ ∀ z, z ≠ c → u.me z = s.me z)
    ∧ (∀ t, t < s.tileCount c → s.owned c t = false → exec (.mret gd t) s = .next (s.issued 1))
    ∧ (∀ t, t < s.tileCount c → s.owned c t = true → s.passing c t = false →
        ∃ u : State, exec (.mret gd t) s = .next (u.issued 1) ∧ u.mem = s.mem
          ∧ (u.me c).owned = m.owned.filter (fun o => o.1 != t) ∧ { u.me c with owned := m.owned, depth := m.depth } = m
          ∧ (u.me c).depth = (if (u.me c).owned = [] then 0 else m.depth)
          ∧ u.stream s.agent = (if r.bbv then { x with counted := x.counted + 65536 } else x))
    ∧ (∀ row k, let at_ := (op k).toNat % 2 ^ 32
        let image := BitVec.ofNat 128 (leNat ((s.sAddrs c at_ 16).map s.rd))
        at_ % 16 = 0 → at_ < 0x08000000 → at_ % 0x200000 + 16 ≤ 0x17F000 → s.Sound (s.sAddrs c at_ 16) →
        (catLegal image = true → (∀ o ∈ m.owned, ∀ y, o.2 = some y → y.1 ≠ row) →
          ∃ u : State, exec (.mcat gd row k) s = .next (u.issued 1) ∧ quiet u ∧ (∀ i, (u.me c).row i = if i = row then some image else m.row i)
            ∧ { u.me c with cat := m.cat } = m)
        ∧ (catLegal image = false → exec (.mcat gd row k) s = .next (s.trapAgent s.agent 0x01 (BitVec.ofNat 64 (encodeWord (.mcat gd row k))))))
    ∧ (∀ t k rows base row b task,
        let cat := catRow row
        let strides : Int × Int := (r.stride.getD (6 * k) 0, r.stride.getD (6 * k + 1) 0)
        let merges (i : Instr) : Prop := i = .mma gd t k rows base 1 ∧ rows + 1 ≤ 64 ∧ s.duty.testBit 1 = false
        t < s.tileCount c → m.row ((r.cbase + x.idx.getD r.clvl 0) % 16) = some row → m.plane m.active = some b → b.stale = false →
        s.tagFailed co b.plane.tag = false → b.plane.bfmt = cat.bfmt → b.plane.kw = (cat.k == 256) →
        (∀ o ∈ m.owned, ∀ y, o.2 = some y → y.2 = cat.float) → (cat.win = true → k < 4) →
        cat.check ((op k).toNat % 2 ^ 32) strides (rows + 1) = .ok () → s.task c = some task → m.depth + 1 ≤ task.depth → s.tileBusy c t = false →
        ((s.core co).passes.filter (fun p => p.member)).length < 16 →
          ∀ i ∈ [Instr.mma gd t k rows base 0, .mma gd t k rows base 1, .mmab gd t k rows base],
            ∃ (u : State) (p : Pass), exec i s = .next (u.issued 0) ∧ p ∈ (u.core co).passes ∧ quiet u ∧ p.id = s.nextId ∧ p.slot = c.ctx
              ∧ p.tile = t ∧ p.abase = (op k).toNat % 2 ^ 32 ∧ p.strides = strides ∧ p.rows = rows + 1 ∧ p.base = base * 8 ∧ p.row = row
              ∧ p.plane = b.plane ∧ p.block = (i == .mmab gd t k rows base) ∧ (p.member = true ↔ merges i) ∧ (¬merges i → p.ready = true)
              ∧ (u.me c).depth = m.depth + 1 ∧ (u.owned c t = true) ∧ ∀ q ∈ (s.core co).passes, ∃ q' ∈ (u.core co).passes, q'.id = q.id)

/-! ### The copy engine and the collective engine -/

/-- 10 R236-R248: a transfer whose operands are legal issues at once, at the cost of its bytes, and stays in flight with what its operands
say; a push or pop takes a slot of its stream, the next one
but where claims have been undone, which is the model's choice (log entry 71); a recorded fetch-and-add joins the mark's; a reduction adds a filled slot into local data and
releases it. A length of 0 does nothing. -/
def Obligations.CopyForms : Prop :=
  ∀ (s : State) (r : Rec) (gd : Guard) (d a l : Nat), s.engineRuns r → (s.stream s.agent).guardOn r gd = true →
    let c := s.agent.ctx
    let x := s.stream s.agent
    let op (k : Nat) : Word := x.a.getD k 0
    let n := (op l).toNat
    let count (on : Bool) (k : Nat) : Nat := if on && r.bbv then x.counted + k else x.counted
    let issues (i : Instr) (cost bytes : Nat) (on : Bool) (staged : List Staged) (t : Transfer) : Prop :=
      ∃ u : State, exec i s = .next (u.issued cost)
        ∧ u.stream s.agent = { x with transfers := x.transfers ++ [t], staged := x.staged ++ staged, counted := count on bytes }
        ∧ (∀ y, y ≠ s.agent → u.stream y = s.stream y) ∧ u.nextId = s.nextId + 1
        ∧ { u with streams := s.streams, nextId := s.nextId, gallery := s.gallery } = s
    let blank (k : TKind) (n : Nat) : Transfer := ⟨s.nextId, k, 0, 0, false, false, n, 0, 1, 0, (0, 0, 0), [], [], [], false, false, [], none, x.epc⟩
    let cost (n : Nat) : Nat := max 1 ((n + 63) / 64)
    let win (v : Word) : Nat := (v.toNat % 2 ^ 32 - 0x80000000) / 0x08000000
    let off (v : Word) : Nat := v.toNat % 0x08000000
    let goal (w o : Nat) : Target := let y := s.window c.die w; ⟨y.tpkg, y.tdie, y.tbase + o, y.key⟩
    let plain (z : StreamSt) : Prop := z.voids = [] ∧ ∀ y ∈ z.claims ++ z.pops, y.2.isBack = false ∧ y.2.isLoose = false ∧ y.2 ≠ .void
    let loan (v : Word) (es : Nat) : Prop := v.toNat % 2 ^ 32 % es = 0 ∧ 0x80000000 ≤ v.toNat % 2 ^ 32
    (∀ dst src p q e b, p < 2 → q < 2 → e < 4 → 0 < n → n ≤ 2 ^ 24 → n % 2 ^ e = 0 →
      s.cxRange c (p == 1) (op d) (2 ^ e) n = .ok dst →
      (s.cxRange c (q == 1) (op a) (2 ^ e) n = .ok src → (p = q → dst + n ≤ src ∨ src + n ≤ dst) →
        issues (.cmov gd d a l p q e) (cost n) n true []
          { blank .cmov n with dst := dst, src := src, dstS := p == 1, srcS := q == 1, es := 2 ^ e })
      ∧ issues (.cfil gd d l b p e) (cost n) n true [] { blank .cfil n with dst := dst, dstS := p == 1, es := 2 ^ e, val := op b })
    ∧ (n = 0 → ∀ p q e b, ∀ i ∈ [Instr.cmov gd d a l p q e, .cfil gd d l b p e, .xsnd gd d a l q, .xbcs gd p d a l, .xgat gd d a l],
        exec i s = .next (s.issued 1))
    ∧ (r.fov = true → exec (.cfol gd) s = .next ((s.setStream s.agent { x with armed := true }).issued 1))
    ∧ (∀ ep z at_, s.endpoint c true ep = some z → s.cxRange c true (op a) 512 (2 ^ z.slog) = .ok at_ → s.stalled z = false →
        (z.mayClaim (s.whoIs c) = true → let k := (z.claim (s.whoIs c)).1
          issues (.cpush gd ep a) (cost (2 ^ z.slog)) 0 false [.push z.launch z.idx k]
            { blank .cpush (2 ^ z.slog) with src := at_, srcS := true, slot := (z.launch, z.idx, k) }
          ∧ (plain z → k = z.prod))
        ∧ (plain z → (z.mayClaim (s.whoIs c) = true ↔ 0 < z.free))
        ∧ (z.mayClaim (s.whoIs c) = false → exec (.cpush gd ep a) s = .next (s.setStream s.agent { x with wait := .stream ep })))
    ∧ (∀ ep z at_, s.endpoint c false ep = some z → s.cxRange c true (op a) 512 (2 ^ z.slog) = .ok at_ → s.stalled z = false →
        (s.order = {} → z.mayPop (s.whoIs c) = true → let k := (z.pop (s.whoIs c)).1
          issues (.cpop gd ep a) (cost (2 ^ z.slog)) (2 ^ z.slog) true [.pop z.launch z.idx k]
            { blank .cpop (2 ^ z.slog) with dst := at_, dstS := true, slot := (z.launch, z.idx, k) }
          ∧ (plain z → k = z.cons))
        ∧ (plain z → (z.mayPop (s.whoIs c) = true ↔ 0 < z.filled))
        ∧ (z.mayPop (s.whoIs c) = false → exec (.cpop gd ep a) s = .next (s.setStream s.agent { x with wait := .stream ep })))
    ∧ (∀ src q, q < 2 → 0 < n → n ≤ 2 ^ 24 → n % 8 = 0 → s.cxRange c (q == 1) (op a) 8 n = .ok src → loan (op d) 8 →
        s.sendOk c (win (op d)) (off (op d)) n = true →
          issues (.xsnd gd d a l q) (cost n) n true []
            { blank .xsnd n with src := src, srcS := q == 1, win := win (op d), dst := off (op d), targets := [goal (win (op d)) (off (op d))] })
    ∧ (∀ p src, 0 < n → n ≤ 2 ^ 24 → n % 8 = 0 → s.cxRange c true (op a) 8 n = .ok src → (op d).toNat % 8 = 0 →
        s.groupOk c.die p (s.asid c) = true → (∀ m ∈ s.members c.die p, (op d).toNat % 2 ^ 32 + n ≤ m.size) →
          issues (.xbcs gd p d a l) (cost (n * (s.members c.die p).length)) (n * (s.members c.die p).length) true []
            { blank .xbcs n with src := src, srcS := true, win := 16 + p, dst := (op d).toNat % 2 ^ 32,
                                 targets := (s.members c.die p).map (fun m => ⟨m.tpkg, m.tdie, m.sbase + (op d).toNat % 2 ^ 32, 0⟩) })
    ∧ (∀ dst, 0 < n → n ≤ 2 ^ 24 → n % 8 = 0 → s.cxRange c true (op d) 8 n = .ok dst → loan (op a) 8 →
        s.windowOk c (win (op a)) (off (op a)) n true false = true → (∀ t ∈ x.transfers, t.id < s.nextId) →
          ∃ (u : State) (t : Transfer), exec (.xgat gd d a l) s = .next (u.issued (cost n)) ∧ u.mem = s.mem
            ∧ (u.stream s.agent).transfers = x.transfers ++ [t] ∧ t.kind = .xgat ∧ t.dst = dst ∧ t.dstS = true ∧ t.src = (op a).toNat % 2 ^ 32 - 0x80000000
            ∧ t.targets = [goal (win (op a)) (off (op a))] ∧ t.win = win (op a) ∧ t.n = n ∧ (u.stream s.agent).counted = count true n
            ∧ (t.pieces.map (fun p => p.data.length)).sum + (t.want.map Prod.snd).sum = n)
    ∧ (∀ v o z old, let b := if z = 1 then 8 else 4
        z < 2 → loan (op d) b → s.windowOk c (win (op d)) (off (op d)) b true true = true → s.cxRange c true (op o) b b = .ok old →
        x.xcads.length < 32 →
          let q : Xcad := ⟨win (op d), off (op d), goal (win (op d)) (off (op d)), b, BitVec.ofNat 64 ((op v).toNat % 2 ^ (8 * b)), old, none, none⟩
          exec (.xcad gd d v o z) s = .next ((s.setStream s.agent { x with counted := count true b, xcads := x.xcads ++ [q] }).issued 1))
    ∧ (s.strict → ∀ h ty key dst task, let z := pailSize (s.word (key + 3))
        let src := s.pailSlot key 1 0
        let ss := s.sAddrs c src z
        let ds := s.sAddrs c dst z
        ty < 4 → s.agent.kind = .xe → s.pail c (r.h.getD h 0) = .ok key → s.failedWord s.agent ((List.range 4).map (key + ·)) = none →
        s.cxRange c true (op d) (redSize ty) z = .ok dst → s.task c = some task → (s.word (task.countKey c.die 4)).toNat ≤ task.p.getD 4 0 → 1 ≤ semCount (s.word key) →
        x.transfers = [] → s.spanMoving c (some (true, dst)) z = false → s.spanMoving c (some (true, src)) z = false → s.Sound ss → s.Sound ds →
        ds.Nodup →
          ∃ u : State, exec (.xred gd d h ty) s = .next (u.issued (cost z)) ∧ (∀ y, y ∉ ds → u.rd y = s.rd y)
            ∧ (∀ y ∈ ds.zip (redBytes ty z (ss.map s.rd) (ds.map s.rd)), u.rd y.1 = y.2)
            ∧ semCount (u.word key) = semCount (s.word key) - 1 ∧ (∀ y, y ≠ key → y ≠ key + 2 → u.word y = s.word y)
            ∧ (u.stream s.agent).staged = x.staged ++ [.release (r.h.getD h 0) 1 (wfld (s.word (key + 2)) 8 8) true] ∧ (u.stream s.agent).counted = count true z)

/-! ### What engines and agents complete on their own -/

/-- 01 R21-R22, 05 R105, R109, 03 R69-R70, 10 R241: an idle engine of a running task takes the next record of its queue, from the first point
of its nest or after its last mark, with the address registers of that point. A mark makes what its interval staged final, at once, and
writes the progress area and the agent's replay count (16 R361); the last mark ends the command, adds its bytes to the barrier, and enqueues
the follow-on that is armed. That it adds them also to a word of MODE 0, which is no barrier, is the model's choice (log entry 62). This where no write's order is open (log
entry 7). -/
def Obligations.CommandsAndMarks : Prop :=
  ∀ (s : State) (ag : AgentId) (r : Rec) (task : Task),
    let x := s.stream ag
    s.order = {} → x.queue.head? = some r → s.task ag.ctx = some task → task.started = true → task.frozen = false →
    (x.active = false → s.heldAtMark ag = false → (ag.kind = .xe → s.depthOf ag.die < 2) → ∀ idx, r.resume = some idx →
      ∃ t y, exec (.engineCommandStart ag) s = .next t ∧ t.stream ag = y ∧ y.active = true ∧ y.idx = idx ∧ y.epc = r.iaddr ∧ y.inBody = false
        ∧ y.blocks = 0 ∧ y.queue = x.queue ∧ y.binds = s.bindings ag.ctx
        ∧ (∀ k, k < 4 → y.a.getD k 0
            = BitVec.ofInt 64 ((r.a.getD k 0).toNat + ((List.range 6).map (fun l => (idx.getD l 0 : Int) * r.stride.getD (6 * k + l) 0)).sum))
        ∧ (∀ k, 4 ≤ k → k < 8 → y.a.getD k 0 = BitVec.ofNat 64 (r.k.getD (k - 4) 0)) ∧ (∀ k, 8 ≤ k → k < 16 → y.a.getD k 0 = 0)
        ∧ { t with streams := s.streams, ves := s.ves } = s ∧ ∀ z, z ≠ ag → t.stream z = s.stream z)
    ∧ (x.active = true → exec (.engineCommandStart ag) s = .next s)
    ∧ (x.active = true → x.atEnd = true → s.settled ag = true → x.wait ≠ .parked → x.reports = [] → x.xcads = [] → ag.kind ≠ .scu →
        let marked : Rec := { r with acc := (r.acc + 1) % 2 ^ 32, mi := x.idx }
        let count := task.countKey ag.die ag.kind.num
        let kept (u t : State) (p z : Nat) : Prop :=
          z = count → t.word z = if (u.word count).toNat < p then BitVec.ofNat 64 p else u.word count
        let p := task.p.getD ag.kind.num 0
        s.failedWord ag (s.markKeys ag r) = none →
        (∀ u idx, s.applyAll ag x.staged = .ok u → isLast x.idx r.bound = false → nestNext x.idx r.bound = some idx →
          ∃ t y, exec (.progressMark ag) s = .next t ∧ t.stream ag = y ∧ y.queue = marked :: x.queue.drop 1 ∧ y.staged = [] ∧ y.idx = idx
            ∧ y.active = true ∧ y.epc = r.iaddr ∧ y.retired = x.retired ∧ t.mem = u.mem ∧ t.gallery = u.gallery
            ∧ ∀ z, kept u t p z ∧ (z ≠ count → t.word z = u.word z))
        ∧ (∀ u v key, isLast x.idx r.bound = true → nestNext x.idx r.bound = none → s.applyAll ag x.staged = .ok u → x.armed = false →
            let adds : Bool := r.bbv && x.counted != 0
            (adds = true → s.handle ag.ctx true r.bbar = .ok key ∧ key ≠ count ∧ (u.word count).toNat ≤ p
              ∧ semAdd (u.word key) x.counted = .ok v) →
              ∃ t y, exec (.progressMark ag) s = .next t ∧ t.stream ag = y ∧ y.queue = x.queue.drop 1 ∧ y.staged = [] ∧ y.active = false
                ∧ y.retired = x.retired + 1 ∧ t.mem = u.mem
                ∧ ∀ z, kept u t (if adds then p + 1 else p) z ∧ (z ≠ count → t.word z = if adds = true ∧ z = key then v else u.word z))
        ∧ (∀ u as, isLast x.idx r.bound = true → nestNext x.idx r.bound = none → x.staged = [] → r.bbv = false → x.armed = true →
            r.follow < 2 ^ 56 → ag.kind = .ce → (s.stream (ag.ctx.agent .me)).queue.length < 64 →
            s.mapVA ag.coreId ag.kind (s.asid ag.ctx) r.follow 256 true false = .ok as u → u.Sound as → recLegal (as.map s.rd) 1 = true →
              ∃ t, exec (.progressMark ag) s = .next t ∧ (t.stream ag).queue = x.queue.drop 1
                ∧ (t.stream (ag.ctx.agent .me)).queue = (s.stream (ag.ctx.agent .me)).queue ++ [recOf (as.map s.rd) r.follow])
        ∧ ∀ cause h, s.applyAll ag x.staged = .error (cause, h) → isLast x.idx r.bound = false →
            exec (.progressMark ag) s = .next (s.trapAgent ag cause (BitVec.ofNat 64 h)))

/-- 03 R60-R61, R65, 06 R157, 10 R237, R244: a transfer and a copy move their bytes and end, each byte as it was when the source was read; a
send takes its source; a wait that is satisfied completes; an acknowledged posted write no longer counts, and one that is refused, or denied on its way, is
reported; nothing comes back over a link that is closed, or to a slot that is lost (15 R342-R343). This where no write's order is open (log entry 7). -/
def Obligations.AgentCompletions : Prop :=
  ∀ (s : State), s.strict →
    (∀ (ag : AgentId) (t : Transfer) (as ds : List Nat) (u v : State),
      (s.stream ag).transfers.head? = some t → t.parked = false → t.begun = false → t.pieces = [] → t.want = [] → t.fault = none →
      s.pushStalled t = false → s.spanMoving ag.ctx t.reads t.n = false → s.spanMoving ag.ctx t.writes t.n = false → t.source s ag = .ok as u → s.Sound as →
      (t.kind ∉ [TKind.xsnd, .xbcs] → t.target u ag = .ok ds v → s.Sound ds → ds.Nodup →
        ∃ w, exec (.transferComplete ag t.id) s = .next w ∧ (∀ e ∈ ds.zip (t.bytes s ag as).1, w.rd e.1 = e.2) ∧ (∀ y, y ∉ ds → w.rd y = s.rd y)
          ∧ (w.stream ag).transfers = (s.stream ag).transfers.filter (fun y => y.id != t.id))
      ∧ (t.kind ∈ [TKind.xsnd, .xbcs] → ∃ w, exec (.transferComplete ag t.id) s = .next w ∧ (∀ y, w.rd y = s.rd y)
          ∧ ∀ y ∈ (w.stream ag).transfers, y.id = t.id → y.begun = true))
    ∧ (∀ (c : CtxId) (ep : Nat) (push : Bool) (z : StreamSt), let x := s.stream (c.agent .ce)
        x.wait = .stream ep → s.endpoint c push ep = some z → s.stalled z = false →
        (if push then z.mayClaim (s.whoIs c) else z.mayPop (s.whoIs c)) = true →
          exec (.streamWaitComplete c) s = .next (s.setStream (c.agent .ce) { x with wait := .none }))
    ∧ (∀ (c : CtxId) (y : Copy) (ss ds : List Nat) (u v : State),
        (s.ctx c).copies.find? (fun z => z.reg == y.reg && z.fault.isNone) = some y → s.copyParked c y.reg = false →
        s.spanMoving c (some (y.dstS, y.dst)) y.n = false → s.spanMoving c (some (y.srcS, y.src)) y.n = false →
        s.copySide c y.srcS y.src y.n false = .ok ss u → s.copySide c y.dstS y.dst y.n true = .ok ds v → s.Sound ss → s.Sound ds → ds.Nodup →
          ∃ t, exec (.cpytComplete c y.reg) s = .next t ∧ (∀ e ∈ ds.zip (ss.map s.rd), t.rd e.1 = e.2) ∧ (∀ a, a ∉ ds → t.rd a = s.rd a)
            ∧ (t.ctx c).copies = (s.ctx c).copies.erase y ∧ (t.ctx c).pc = (s.ctx c).pc
            ∧ ∀ i, i < 32 → (t.ctx c).reg i = if i = y.reg ∧ i ≠ 0 then BitVec.ofNat 64 y.n else (s.ctx c).reg i)
    ∧ (∀ (gd : Guard) (a b key : Nat) (task : Task),
        let c := s.ctx s.here
        s.agent.kind = .scu → s.agent.slot < 4 → s.nextOf s.agent = some (.semwait gd a b) → c.blocked = true → s.runs gd [a, b] →
        let count := task.countKey s.agent.die 0
        let p := task.p.getD 0 0
        s.affords s.agent.coreId 0 1 = true → (∀ h ∈ (s.core s.agent.coreId).bucketHeld, h.1 ≠ 0) → s.heldBack false false = false →
        s.handle s.here false ((c.reg a).toNat % 2 ^ 32) = .ok key → s.failedWord s.agent [key] = none →
        s.task s.here = some task → (s.word count).toNat ≤ p → semMode (s.word key) = 0 →
        ((c.reg b).setWidth 32 : BitVec 32).toInt ≤ semCount (s.word key) →
          ∃ t, exec (.vaultWaitComplete s.agent) s = .next t ∧ t.ctx s.here = c.complete 2 ∧ s.ScuPaid t
            ∧ ∀ z, t.word z = if z = count then BitVec.ofNat 64 (p + 1) else s.word z)
    ∧ (∀ (co : CoreId) (p : Posted) (r : Req) (ok : Bool), (s.core co).posted.find? (fun q => q.id == p.id) = some p →
        s.reqs.find? (fun q => q.owner == .posted co p.id) = some r → s.timedOut r = false → p.note = [] →
        (∀ d ∈ co.slots, (s.ve d).pend = [] ∧ (s.stream (d.agent .xe)).transfers = []) → p.agent.coreId = co →
        (r.denied = false → s.mayAnswer r = false → exec (.windowWriteAck co p.id ok) s = .next s)
        ∧ (r.denied = true ∨ s.mayAnswer r = true →
          ∃ t, exec (.windowWriteAck co p.id ok) s = .next t ∧ (t.core co).posted = (s.core co).posted.filter (fun q => q.id != p.id) ∧ t.mem = s.mem
            ∧ (ok = true → r.denied = false → t.ctxs = s.ctxs ∧ t.streams = s.streams)
            ∧ ∀ task, (ok = false ∨ r.denied = true) → p.drop = false → p.agent.kind = .scu → p.win < 16 → s.task p.agent.ctx = some task →
                task.launch = p.launch →
                (t.ctx p.agent.ctx).reports = (s.ctx p.agent.ctx).reports ++ [BitVec.ofNat 64 (p.win * 2 ^ 32 + p.off % 2 ^ 32)]))

/-- 09 R211-R212, R222-R230, 17 R385: a fetched image stands in the cellar as memory held it; an expansion ends with the image; a stack whose
deadline has come is ready since its earliest deadline; the first ready stack takes the free array once its plane is expanded, for as many row cycles as it has rows, where ready
passes that keep both planes go first and the cycles it takes are the model's choices (log entries 80, 78); a pass writes its rows and nothing else; an exchange of two
accumulator positions is seen by no task. What is read of memory is where no write's order is open (log entry 7). Then 02 R47-R48 on the values of one row:
a float element is the rounding to FP32, once, of the sum of the old word and the exact products, each cut down to the quantum of the largest, whatever
their order, with R47's cases of NaNs, infinities and zeros; an integer element is their sum modulo 2^32. All values are taken times 2^K. -/
def Obligations.MatrixEvents : Prop :=
  (∀ (s : State) (co : CoreId), s.order = {} →
    let k := s.core co
    (∀ (tag va : Nat) (e : CellarEntry) (as : List Nat) (u : State), k.entry tag = some e → e.va = some va → e.image = none → e.failed = false →
      e.parked = false → va + e.lines * 64 ≤ 2 ^ 56 → s.mapVA co .me e.asid va (e.lines * 64) true false = .ok as u → s.Sound as →
        ∃ t, exec (.cellarFetchComplete co tag) s = .next t ∧ (t.core co).entry tag = some { e with image := some (as.map s.rd) }
          ∧ ∀ y, y < 2 ^ 57 → t.rd y = s.rd y)
    ∧ (∀ (q : Phys) (e : CellarEntry) (bs : List Byte), k.phys0 = some q → q.done = false → k.entry q.plane.tag = some e → e.failed = false →
        e.image = some bs → s.ecc = [] →
          ∃ t, exec (.planeExpansionComplete co 0) s = .next t ∧ (t.core co).phys0 = some { q with image := bs, done := true }
            ∧ (t.core co).phys1 = k.phys1 ∧ (∀ y, y < 2 ^ 58 → t.rd y = s.rd y) ∧ { t with cores := s.cores, mem := s.mem } = s)
    ∧ (∀ (id : Nat) (p : Pass), p ∈ k.passes → p.stack = id → p.open_ = true → p.deadline ≤ s.unitCycles co 2 →
        ∃ t at_, exec (.churnDeadline co id) s = .next t ∧ { t with cores := s.cores } = s
          ∧ (t.core co).passes = k.passes.map (fun q => if q.stack = id ∧ q.open_ = true then { q with ready := true, readyAt := at_ } else q)
          ∧ (∃ q ∈ k.passes, q.stack = id ∧ q.open_ = true ∧ q.deadline = at_)
          ∧ ∀ q ∈ k.passes, q.stack = id → q.open_ = true → at_ ≤ q.deadline)
    ∧ (∀ (p : Pass) (q : Phys),
        let can (x : Pass) : Bool := x.ready && !x.withdrawn && !x.failed && x.image.isEmpty
        k.arrayLeft = 0 → k.firstPass k.candidates = some p → k.expanded p.plane = some q → s.meDuty co = true →
        k.heldForSlot p = false → s.affords co 2 (k.passCost p) = true →
          ∃ t, exec (.arrayPass co) s = .next t ∧ { t with cores := s.cores } = s ∧ (t.core co).arrayLeft = k.passCycles p
            ∧ (t.core co).passes = k.passes.map (fun x => if x.stack = p.stack ∧ can x = true then { x with running := true, image := q.image } else x)
            ∧ (t.core co).buckets.getD 2 {} = (k.buckets.getD 2 {}).spend (k.passCost p))
    ∧ (∀ (id : Nat) (p : Pass),
        let c := co.ctx p.slot
        let row (i : Nat) : Nat := tileAt co (s.tilePos c p.tile) ((p.base + i) * 512)
        let cat := catRow p.row
        let cols := (List.range 128).map (planeColumn p.image p.plane.bfmt p.plane.kw)
        k.passes.find? (fun x => x.id == id) = some p → p.image ≠ [] → p.failed = false →
        (∀ q ∈ k.passes, q.slot = p.slot → q.tile = p.tile → id ≤ q.id) → s.ecc = [] →
          ∃ t, exec (.passComplete co id) s = .next t
            ∧ (t.core co).passes
                = (k.passes.filter (fun x => x.id != id)).map (fun x => if x.stack = p.stack then { x with running := false } else x)
            ∧ (∀ i, i < p.rows → t.rdN (row i) 512
                = cat.outRow p.block (s.rdN (row i) 512) (cat.values ((s.aRow c p i).map s.rd) ((s.aScales c p i).map s.rd)) cols)
            ∧ ∀ y, (y < row 0 ∨ row p.rows ≤ y) → t.rd y = s.rd y)
    ∧ (∀ p q rest, s.wf = true → k.exchanges = (p, q) :: rest → p ≠ q →
        ∃ t, exec (.bankExchangeComplete co) s = .next t ∧ (t.core co).exchanges = rest
          ∧ (∀ y, y < 65536 → t.rd (tileAt co p y) = s.rd (tileAt co q y) ∧ t.rd (tileAt co q y) = s.rd (tileAt co p y))
          ∧ (∀ c ∈ co.slots, ∀ n y, n < s.tileCount c → y < 65536 → t.rd (tileAt co (t.tilePos c n) y) = s.rd (tileAt co (s.tilePos c n) y))
          ∧ ∀ y, (∀ z, z < 65536 → y ≠ tileAt co p z ∧ y ≠ tileAt co q z) → t.rd y = s.rd y))
  ∧ ∀ (cat : CatRow) (block : Bool) (old : List Byte) (row : List Val) (cols : List (List Val)) (n : Nat), n < 128 → cols.length = 128 →
      let part (l : List Val) : List Val := if block then (l.drop (n / 8 * (cat.k / 16))).take (cat.k / 16) else l
      let was := fld (leNat old) (32 * n) 32
      let new := fld (leNat (cat.outRow block old row cols)) (32 * n) 32
      (cat.float = true →
        let l := fp32.decode was :: List.zipWith Val.mul (part row) (part (cols.getD n []))
        (.nan ∈ l ∨ .inf false ∈ l ∧ .inf true ∈ l → new = 0x7FC00000)
        ∧ (∀ neg, .nan ∉ l → .inf neg ∈ l → .inf (!neg) ∉ l → new = if neg then 0xFF800000 else 0x7F800000)
        ∧ ((∀ v ∈ l, v.isZero = true) → new = if ∀ v ∈ l, v = .zero true then 0x80000000 else 0)
        ∧ ∀ K : Nat,
            let value (v : Val) : Int := match v with | .fin m e => m * 2 ^ (e + K).toNat | _ => 0
            let largest := l.foldl (fun z v => max z (value v).natAbs.log2) 0
            let quantum : Int := 2 ^ (largest - 63)
            let sum : Int := (l.map (fun v => value v / quantum * quantum)).sum
            (∀ v ∈ l, v.isZero = true ∨ ∃ m e : Int, v = .fin m e ∧ m ≠ 0 ∧ 0 ≤ e + K) → (∃ v ∈ l, v.isZero = false) → 63 ≤ largest →
              new = if sum = 0 then 0 else (fp32.round 0 0 false (.fin sum (-K))).1)
      ∧ (cat.float = false → ∀ xs ys : List Int, part row = xs.map Val.ofInt → part (cols.getD n []) = ys.map Val.ofInt →
          new = (((BitVec.ofNat 32 was).toInt + (List.zipWith (fun x y => x * y) xs ys).sum) % 2 ^ 32).toNat)

/-! ### Admissions and launches -/

/-- 14 R295, R299-R303: the packets. A queue of RUN, with nothing pending and no queue waiting for a word, goes on from the point, the calls
and the loops that the packet gives, with HEAD at its point in the ring; a packet in error stops it in ERROR with the code and its address. -/
def Obligations.PacketForms : Prop :=
  ∀ (s : State) (q turn : Nat),
    let x := s.queue q
    let w := x.walk
    let past (n : Nat) : ExecPoint := x.point.past n
    s.turnOf = some (q, turn) → x.state = 1 → x.wait = .no → x.stopFor = none → x.offPending = false → x.skip = 0 →
    (∀ p h n d g, (s.queue p).wait ≠ .sem h n d g) →
    let goes (i : Instr) (v : Walk) (mem : State → Prop) : Prop := ∃ t y, exec i s = .next t ∧ t.queue q = y ∧ y.state = 1 ∧ y.point = v.point
      ∧ y.calls = v.calls ∧ y.loops = v.loops ∧ y.head = (if v.calls = [] then BitVec.ofNat 32 v.point.addr else x.head) ∧ y.tail = x.tail
      ∧ mem t ∧ t.launches = s.launches ∧ t.launchSeq = s.launchSeq
    let kept (t : State) : Prop := t.mem = s.mem ∧ t.vault = s.vault
    let fails (i : Instr) (code : Nat) : Prop := ∃ t y, exec i s = .next t ∧ t.queue q = y ∧ y.state = 2 ∧ y.reason = code
      ∧ y.epos = x.point.byteAddr q ∧ y.head = x.head ∧ q ∈ t.errmap ∧ Out.irqAdmissions q ∈ t.outbox ∧ t.turnOf = none ∧ kept t
    let open_ := x.loops.headD []
    (∀ code, fails (.illegalPacket code) code)
    ∧ (∀ a l, (x.calls.length < 4 → goes (.qcall a l) ⟨⟨false, a, a + 4 * l⟩, past 3 :: x.calls, [] :: x.loops⟩ kept)
        ∧ (4 ≤ x.calls.length → fails (.qcall a l) 0x04)
        ∧ (x.calls ≠ [] → open_ = [] → goes (.qjump a l) ⟨⟨false, a, a + 4 * l⟩, x.calls, x.loops⟩ kept)
        ∧ (x.calls = [] → fails (.qjump a l) 0x05) ∧ (x.calls ≠ [] → open_ ≠ [] → fails (.qjump a l) 0x06))
    ∧ (∀ b t, x.calls = b :: t → (open_ = [] → goes .qret ⟨b, t, x.loops.drop 1⟩ kept) ∧ (open_ ≠ [] → fails .qret 0x06))
    ∧ (x.calls = [] → fails .qret 0x05)
    ∧ (∀ n, (open_.length < 4 → goes (.qloop n) ⟨past 2, x.calls, ((past 2, n) :: open_) :: x.loops.drop 1⟩ kept)
        ∧ (4 ≤ open_.length → fails (.qloop n) 0x06))
    ∧ (∀ b n t, open_ = (b, n) :: t → (1 < n → goes .qlend ⟨b, x.calls, ((b, n - 1) :: t) :: x.loops.drop 1⟩ kept)
        ∧ (n ≤ 1 → goes .qlend ⟨past 1, x.calls, t :: x.loops.drop 1⟩ kept))
    ∧ (open_ = [] → fails .qlend 0x06)
    ∧ (∀ a v, s.ecc = [] → goes (.qwrite a v) { w with point := past 3 } (fun t => t.rdNat (0x4200000000 + a) 4 = v % 2 ^ 32
        ∧ t.vault = s.vault ∧ ∀ y, (y < 0x4200000000 + a ∨ 0x4200000000 + a + 4 ≤ y) → t.rd y = s.rd y))
    ∧ goes .qfence { w with point := past 1 } kept
    ∧ (∀ n, goes (.qnop n) { w with point := past n } kept)
    ∧ (∀ c a v k, c < 6 → s.ecc = [] →
        let m : BitVec 32 := BitVec.ofNat 32 (s.rdNat (0x4200000000 + a) 4)
        let z : BitVec 32 := BitVec.ofNat 32 v
        v < 2 ^ 32 →
        [m == z, m != z, decide (m.toInt < z.toInt), decide (z.toInt ≤ m.toInt), decide (m.toNat < z.toNat), decide (z.toNat ≤ m.toNat)].getD c false = true →
          goes (.qpred c a v k) { w with point := past 4 } kept)
    ∧ (∀ after i n, i < 2 ^ 16 → (after = 1 → s.outstanding q = false) → s.vaultBad.contains (pkgWord i) = false → semMode (s.word (pkgWord i)) = 0 →
        (∀ v, semAdd (s.word (pkgWord i)) (BitVec.ofNat 32 n).toInt = .ok v →
          goes (.qsignal after (2 ^ 16 + i) n) { w with point := past 3 } (fun t => t.mem = s.mem ∧ ∀ y, t.word y = if y = pkgWord i then v else s.word y))
        ∧ (∀ g, (BitVec.ofNat 32 n).toInt ≤ semCount (s.word (pkgWord i)) → goes (.qwait 0 (2 ^ 16 + i) n g) { w with point := past 4 } kept)
        ∧ (∀ g, semCount (s.word (pkgWord i)) < (BitVec.ofNat 32 n).toInt →
            ∃ t, exec (.qwait 0 (2 ^ 16 + i) n g) s = .next t ∧ (t.queue q).wait = .sem (2 ^ 16 + i) n false g ∧ (t.queue q).point = x.point ∧ kept t
              ∧ t.turnOf = none))
    ∧ (∀ after h n, (after = 1 → s.outstanding q = false) → h / 2 ^ 16 ≠ 1 → fails (.qsignal after h n) 0x03)

/-- 14 R292-R294: the notify is judged by its form, its queue's state, its tag and its nonce, and moves TAIL; the control writes of a queue,
which a supervisor makes (13 R276). The model's choices: that OFF written while an offer is out waits for its end (log entry 69), and the order
of the bytes of a tag and a key (log entry 8). Then R305-R307: of two runnable queues an urgent one takes the turn, else that of least PASS, on a tie the
lower; a queue that has become runnable takes at least the PASS of the other where both are of one pool; the tickets that a blocked queue lends reach
the first queue of its chain that is not blocked and runs, within 4 hops and without a return; and the 64th packet of a turn charges 1 at the
stride of the tickets of the queue and those lent to it. -/
def Obligations.QueueEvents : Prop :=
  (∀ (s : State) (q : Nat),
    let x := s.queue q
    let same (t : State) : Prop := t.mem = s.mem ∧ t.vault = s.vault ∧ t.launches = s.launches ∧ t.ctxs = s.ctxs ∧ t.cores = s.cores
    (∀ (tail : Nat) (nonce tag : Word) (reserved : Bool),
      let m : BitVec 32 := BitVec.ofNat 32 tail
      let genuine := tag = gmac (s.key256 (0x4100010000 + 0x20 * q)) (beBytes 8 nonce.toNat ++ beBytes 4 q)
        (natLe 4 q ++ natLe 4 tail ++ natLe 8 nonce.toNat)
      let n : Instr := .notify q tail nonce tag reserved
      (s.duty.testBit 7 && s.cur.takeover) = false → q < 1024 →
      ((reserved = true ∨ x.state = 0 ∨ x.quar = true) →
        ∃ t, exec n s = .next t ∧ t.queue q = { x with fails := min (x.fails + 1) 0xFFFFFFFF } ∧ { t with queues := s.queues } = s)
      ∧ (reserved = false → x.state ≠ 0 → x.quar = false → ¬genuine ∨ nonce.toNat ≤ x.nonce.toNat →
          ∃ t y, exec n s = .next t ∧ same t ∧ t.queue q = y ∧ y.fails = min (x.fails + 1) 0xFFFFFFFF ∧ y.failrun = x.failrun + 1
            ∧ y.tail = x.tail ∧ y.nonce = x.nonce ∧ (y.quar = true ↔ 16 ≤ x.failrun + 1) ∧ (y.quar = true → y.reason = 0x30 ∧ q ∈ t.errmap))
      ∧ (reserved = false → x.state = 1 → x.quar = false → genuine → x.nonce.toNat < nonce.toNat → x.offPending = false →
          ∃ t y, exec n s = .next t ∧ same t ∧ t.queue q = y ∧ y.nonce = nonce ∧ y.failrun = 0
            ∧ if (m - x.tail).toNat < 2 ^ 31 ∧ (m - x.done).toNat ≤ 1024 then y.state = 1 ∧ y.tail = m
              else y.state = 2 ∧ y.reason = 0x20 ∧ y.tail = x.tail ∧ q ∈ t.errmap))
    ∧ (s.supervised = true →
    (x.state ≠ 1 → (x.head - x.done).toNat ≤ (x.tail - x.done).toNat → (x.tail - x.done).toNat ≤ 1024 →
        ∃ t y, exec (.queueSetRun q) s = .next t ∧ same t ∧ t.queue q = y ∧ y.state = 1 ∧ y.reason = 0 ∧ y.calls = [] ∧ y.head = x.head ∧ y.tail = x.tail
          ∧ y.point = ⟨true, x.head.toNat, 0⟩)
    ∧ (x.state ≠ 0 → x.offer = none → ∃ t, exec (.queueSetOff q) s = .next t ∧ same t ∧ (t.queue q).state = 0 ∧ (t.queue q).tail = x.tail)
    ∧ (x.state = 0 → exec (.queueSetOff q) s = .next (s.setQueue q { x with window := [] }))
    ∧ (x.state ≠ 0 → x.offer.isSome = true →
        exec (.queueSetOff q) s = .next (s.setQueue q { x with window := [], offPending := true }))
    ∧ (∀ v : BitVec 32, (x.state ≠ 1 → exec (.queueCountsWrite q 0 v) s = .next (s.setQueue q { x with head := v })
          ∧ exec (.queueCountsWrite q 1 v) s = .next (s.setQueue q { x with tail := v })
          ∧ ∃ t, exec (.queueCountsWrite q 2 v) s = .next t ∧ (t.queue q).done = v ∧ (t.queue q).head = x.head ∧ (t.queue q).tail = x.tail)
        ∧ ∀ n, x.state = 1 → exec (.queueCountsWrite q n v) s = .next s)
    ∧ (∃ t y, exec (.quarClear q) s = .next t ∧ t.queue q = y ∧ y.quar = false ∧ { y with quar := x.quar, failrun := x.failrun } = x
        ∧ (x.quar = false → y = x) ∧ { t with queues := s.queues } = s)
    ∧ (∃ t, exec (.errmapClear q) s = .next t ∧ (∀ p, p ∈ t.errmap ↔ p ∈ s.errmap ∧ p ≠ q) ∧ { t with errmap := s.errmap } = s)
    ∧ (∀ p, s.turnOf = none → s.duty.testBit 2 = false → Table.keys s.queues = [q] → x.skip = 0 → x.wait = .no → x.state = 1 →
        s.fetchPacket q = some p → ∃ t, exec .choose s = .next t ∧ t.turnOf = some (q, 0) ∧ same t)))
  ∧ (∀ (s : State) (p q : Nat),
      let x := s.queue p
      let y := s.queue q
      p ≠ q → s.turnOf = none → s.duty.testBit 2 = false → Table.keys s.queues = [p, q] → (∀ z ∈ [p, q], (s.queue z).skip = 0 ∧ (s.queue z).wait = .no
        ∧ (s.queue z).state = 1 ∧ (s.fetchPacket z).isSome = true) →
      let first (a b : Nat) : Nat :=
        if x.urgent ≠ y.urgent then (if x.urgent then p else q) else if a < b ∨ a = b ∧ p < q then p else q
      (x.runnable = true → y.runnable = true →
        ∃ t, exec .choose s = .next t ∧ t.turnOf = some (first x.pass y.pass, 0) ∧ (t.queue p).pass = x.pass ∧ (t.queue q).pass = y.pass)
      ∧ (x.runnable = true → y.runnable = false →
          let woken := if x.urgent = y.urgent then max y.pass x.pass else y.pass
          ∃ t, exec .choose s = .next t ∧ t.turnOf = some (first x.pass woken, 0) ∧ (t.queue p).pass = x.pass ∧ (t.queue q).pass = woken))
  ∧ (∀ (s : State) (l z : Nat),
      let blockedOn (a g : Nat) : Prop := (s.queue a).state = 1 ∧ ∃ h n d, (s.queue a).wait = .sem h n d g
      s.lends l = some z ↔ ∃ way : List Nat, way.length ≤ 4 ∧ way.Nodup ∧ l ∉ way ∧ way.getLast? = some z ∧ (∀ g, ¬blockedOn z g) ∧ (s.queue z).state = 1
        ∧ ∀ i a b : Nat, (l :: way)[i]? = some a → way[i]? = some b → blockedOn a b)
  ∧ ∀ (s : State) (q l h n k : Nat) (dec : Bool),
      let x := s.queue q
      let y := s.queue l
      q ≠ l → Table.keys s.queues = [q, l] → s.turnOf = some (q, 63) → x.state = 1 → x.wait = .no → x.stopFor = none → x.offPending = false → x.skip = 0 →
      x.runnable = true → y.state = 1 → y.wait = .sem (2 ^ 16 + h) n dec q → y.runnable = false → h < 2 ^ 16 → s.vaultBad.contains (pkgWord h) = false →
      semMode (s.word (pkgWord h)) = 0 → 1 ≤ n → n < 2 ^ 31 → semCount (s.word (pkgWord h)) < n →
        ∃ t, exec (.qnop k) s = .next t ∧ t.turnOf = none ∧ (t.queue q).pass = (x.pass + 2 ^ 20 / (x.tickets + y.tickets)) % 2 ^ 64
          ∧ (t.queue l).pass = y.pass

/-- 01 R20, 14 R298, R308-R310, R317-R321: a QLAUNCH is offered to every live die of DIES; a die answers what its checks give; a launch that
all accept is dispatched under the next sequence number, becomes instances on its dies, tasks on their slots, and is complete when every die
has reported it, its queue being charged its weight (R306). A task's end leaves its registers until the next task starts (11 R258); that memory stays as it is by then
is where no write's order is open (log entry 7). The model's choices: the vault words that hold the counts
and the replay set that an instance takes (log entry 46), and that the dies' body bytes are the same (log entry 45). -/
def Obligations.LaunchEvents : Prop :=
  ∀ (s : State) (q turn : Nat),
    let x := s.queue q
    (∀ weight cls dies depth bodyLen body bodySum arg,
      let live := (List.range 12).filter (fun d => dies.testBit d && s.service.livedie.testBit d)
      s.turnOf = some (q, turn) → live ≠ [] → (∀ d, d < 12 → dies.testBit d = true → d ∈ s.partDies x.part) →
        ∃ t o, exec (.qlaunch 0 weight cls dies depth bodyLen body bodySum arg) s = .next t ∧ (t.queue q).offer = some o ∧ (t.queue q).point = x.point
          ∧ o.live = live ∧ o.answers = live.map (fun d => (d, .none)) ∧ o.asid = x.asid ∧ o.part = x.part ∧ o.q.body = body ∧ o.q.bodySum = bodySum
          ∧ o.q.arg = arg ∧ o.q.cls = cls ∧ o.q.weight = weight ∧ t.outbox = s.outbox ++ live.map .offer ∧ t.launches = s.launches ∧ t.mem = s.mem
          ∧ t.service = { s.service with reopened := s.service.reopened.filter (fun e => !live.contains e.1) })
    ∧ (∀ d o as u, s.offered d = some (q, o) → x.offer = some o → (s.die d).repairBusy = false → (s.die d).resetAt = none →
        o.q.body + 64 * o.q.bodyLen ≤ 2 ^ 56 → s.mapReg d o.asid o.q.body (64 * o.q.bodyLen) false = .ok as u → s.Sound as →
          let b := as.map s.rd
          let a : Answer := match u.bodyCode o d b with | some c => .refuse c | none => if u.registrarBusy d (bodyOf b) then .busy else .accept
          ∃ t o', exec (.offer d) s = .next t ∧ (t.queue q).offer = some o' ∧ o'.answers = o.answers.map (fun e => if e.1 = d then (d, a) else e)
            ∧ t.mem = s.mem ∧ t.launches = s.launches)
    ∧ (∀ d o, s.offered d = some (q, o) → (s.die d).repairBusy = false → (s.die d).resetAt ≠ none →
        exec (.offer d) s = .next (s.answer q d .busy none))
    ∧ (∀ o b base pkg, Table.keys s.queues = [q] → x.offer = some o → (∀ e ∈ o.answers, e.2 = .accept) → o.body = some b → x.offPending = false →
        x.stopFor = none → s.findBase o.live b.dieWords = some base → s.findPkg b.pkgWords = some pkg →
          ∃ t l, exec .offerAnswer s = .next t ∧ t.launches = s.launches ++ [l] ∧ l.seq = s.launchSeq ∧ l.q = o.q ∧ l.dies = o.live
            ∧ l.pending = o.live ∧ l.done = [] ∧ l.body = b ∧ l.base = base ∧ l.pbase = pkg ∧ l.failed = false
            ∧ t.launchSeq = (s.launchSeq + 1) % 2 ^ 32 ∧ (t.queue q).lastseq = s.launchSeq ∧ (t.queue q).offer = none ∧ t.mem = s.mem
            ∧ (t.queue q).point = x.point.past 10 ∧ (t.queue q).pass = (x.pass + 2 ^ 20 / x.tickets * o.q.weight) % 2 ^ 64)
    ∧ (∀ d, (∀ p o, (s.queue p).offer = some o → (d, .held) ∉ o.answers) →
        ∃ t, exec (.drop d) s = .next t ∧ (t.die d).parked = (s.die d).parked.filter (fun p => p.owner != .registrar || p.wr) ∧ { t with dies := s.dies } = s)
    ∧ (∀ d l, s.launches.find? (fun m => m.pending.contains d) = some l → (s.die d).resetAt = none → (s.die d).repairBusy = false →
        s.goParked d = false → l.body.relocs = [] → l.failed = false → s.launchFailed l.seq = false → l.instsOn d ≠ [] →
        (∀ i ∈ (s.die d).insts, i.launch ≠ l.seq) → l.base + l.body.initWords.length ≤ 10240 →
        l.body.nodes.length ≤ (s.die d).freeCounts.length →
          ∃ t, exec (.go d) s = .next t ∧ t.mem = s.mem ∧ ((t.die d).insts.filter (fun i => i.launch == l.seq)) = l.instsOn d
            ∧ (∀ m ∈ t.launches, m.seq = l.seq → d ∉ m.pending)
            ∧ (∀ n, n < l.body.initWords.length → t.word (dieWord d (l.base + n)) = l.body.initWords.getD n 0)
            ∧ ∀ e ∈ s.countWords d l, t.word (dieWord d e.2.1) = BitVec.ofNat 64 e.2.2)
    ∧ (∀ d c i l n t', s.mode = .running → (s.die d).resetAt = none → s.failedCount d = none → (s.die d).insts = [i] → i.status = .ready → i.set = none →
        s.launches = [l] → l.failed = false → l.seq = i.launch → l.body.nodes[i.node]? = some n → l.assisted = false →
        s.placeCore d l n i [] = some c → t' = l.taskOf n i 0 →
          ∃ t slot, exec (.place d) s = .next t ∧ (s.freeSlots ⟨d, c⟩).head? = some slot ∧ t.task ⟨d, c, slot⟩ = some t'
            ∧ (t.die d).insts = [{ i with status := .placed c slot, set := some 0 }] ∧ t.mem = s.mem
            ∧ (∀ k, k < 8 → t.word (dieWord d (14336 + k)) = 0) ∧ ∀ z, z ≠ ⟨d, c, slot⟩ → t.task z = s.task z)
    ∧ (∀ c t, s.task c = some t → t.started = false → t.frozen = false → t.preempting = false → t.preempted = false → s.coreRuns c.coreId = true → (∀ p ∈ (s.die c.die).parked, p.owner ≠ .image c) →
        t.loadFail = none → (s.core c.coreId).loaded t.image = true →
          ∃ u y, exec (.taskStart c) s = .next u ∧ u.ctx c = y ∧ y.pc = t.entry ∧ (∀ i, i < 32 → y.reg i = if i = 1 then t.arg else 0)
            ∧ (∀ i, y.cond i = (i == 15)) ∧ y.depth = 0 ∧ y.wopen = true ∧ y.slotn = c.ctx ∧ y.votes = [] ∧ u.task c = some { t with started := true }
            ∧ (∀ n z, n < t.tiles → z < 65536 → u.rd (tileAt c.coreId (s.tilePos c n) z) = 0) ∧ ∀ z, z ≠ c → u.ctx z = s.ctx z)
    ∧ (∀ c t, s.order = {} → s.task c = some t → t.parked = true → t.frozen = false → t.preempting = false → t.preempted = false → t.slotLevels = [] →
        s.failedCount c.die = none →
          ∃ u, exec (.taskEnd c) s = .next u ∧ u.task c = none ∧ u.ctx c = (s.ctx c).ended ∧ (∀ k ∈ engineKinds, u.stream (c.agent k) = {}) ∧ u.mem = s.mem
            ∧ ∀ i ∈ (u.die c.die).insts, i.onSlot c.core c.ctx = false)
    ∧ (∀ c t lvx, s.task c = some t → t.parked = true → t.frozen = false → t.preempting = false → t.preempted = false → nextSlotPoint t (s.ctx c).lvx = some lvx →
          ∃ u, exec (.taskEnd c) s = .next u ∧ u.task c = some { t with parked := false } ∧ (u.ctx c).pc = t.entry ∧ (u.ctx c).lvx = lvx
            ∧ (u.ctx c).reg 1 = t.arg ∧ u.mem = s.mem)
    ∧ (∀ l, s.launches = [l] → (∀ d ∈ l.dies, d ∈ l.done) → l.dies ≠ [] →
          ∃ t, exec (.launchComplete l.seq) s = .next t ∧ t.launches = [] ∧ (∀ z ∈ t.gallery, z.launch ≠ l.seq) ∧ t.mem = s.mem)

/-! ### The fabric and what reaches a die -/

/-- 03 R62, 10 R251-R252, 15 R331, R336-R337: an access from another package is admitted by a lending entry and the domain key, and answered
by a denial otherwise, once its die runs; an authenticated notify moves TAIL of a running queue, or stops it; the owner's stores and the supervisor's writes of a
control block do what the block's state allows. The model's choices: that the RUN write carries the owner (log entry 27), the order of the bytes of a
tag (log entry 8), and that a load of an uncorrectable word is answered with the stored bytes (log entry 47). -/
def Obligations.InboundEvents : Prop :=
  ∀ (s : State) (d : Nat) (x : InSrc) (k : Word), (s.die d).resetAt = none →
    let src := (s.sourceOf x k).1
    let key := (s.sourceOf x k).2
    let refused (i : Instr) (src : Nat) : Prop := exec i s = .next (s.send (.reply src false []))
    (∀ a n, InSrc.takes x (.load a n) = true → s.admits d src key a n true false = true →
        exec (.inboundAccess d x k (.load a n)) s = .next (s.send (.reply src true (s.rdN (0x4600000000 + d * 0x10000000 + a) n))))
    ∧ (∀ a bs, InSrc.takes x (.store a bs) = true → s.admits d src key a bs.length false true = true → s.ecc = [] →
        let at_ := 0x4600000000 + d * 0x10000000 + a
        ∃ t, exec (.inboundAccess d x k (.store a bs)) s = .next t ∧ t.rdN at_ bs.length = bs
          ∧ (∀ y, (y < at_ ∨ at_ + bs.length ≤ y) → t.rd y = s.rd y) ∧ t.outbox = s.outbox ++ [.reply src true []]
          ∧ { t with mem := s.mem, ecc := s.ecc, outbox := s.outbox, order := s.order, nextId := s.nextId } = s)
    ∧ (∀ a f v, InSrc.takes x (.atomic a 8 f v) = true → s.admits d src key a 8 true true = true → s.ecc = [] → f < 8 →
        let at_ := 0x4600000000 + d * 0x10000000 + a
        let old := s.rdNat at_ 8
        ∃ t, exec (.inboundAccess d x k (.atomic a 8 f v)) s = .next t ∧ t.rdNat at_ 8 = amoNew f 64 old v.toNat
          ∧ (∀ y, (y < at_ ∨ at_ + 8 ≤ y) → t.rd y = s.rd y) ∧ t.outbox = s.outbox ++ [.reply src true (natLe 8 old)])
    ∧ (∀ a e v, InSrc.takes x (.cas a 8 e v) = true → s.admits d src key a 8 true true = true → s.ecc = [] →
        let at_ := 0x4600000000 + d * 0x10000000 + a
        let old := s.rdNat at_ 8
        ∃ t, exec (.inboundAccess d x k (.cas a 8 e v)) s = .next t ∧ t.rdNat at_ 8 = (if old = e.toNat then v.toNat else old)
          ∧ t.outbox = s.outbox ++ [.reply src true (natLe 8 old)])
    ∧ (∀ (q : InReq), (∀ st tpkg tdie a n id cw v, q ≠ .bridge st tpkg tdie a n id cw v) →
        s.keyReaches d key = false ∨ s.lending d = [] ∨ InSrc.takes x q = false → refused (.inboundAccess d x k q) src)
    ∧ (∀ (r : InReq) n, (∀ st tpkg tdie a n id cw v, r ≠ .bridge st tpkg tdie a n id cw v) →
        exec (.inboundAccess d x k r) (s.modDie d (fun y => { y with resetAt := some n })) = .next (s.modDie d (fun y => { y with resetAt := some n })))
    ∧ (∀ q src key m nonce tag, (s.keyReaches d key = false ∨ s.lending d = []) → refused (.ingressNotify d q src key m nonce tag) src)
    ∧ (∀ q src key m nonce tag, s.keyReaches d key = true → q < 64 → s.lends_ d src (0x0C00000C + 64 * q) 4 false false true = true →
        let i := (s.die d).icb q
        let genuine := wfld (s.reg (0x4300000000 + d * 0x100000 + 0x40020 + 64 * q)) 0 9 = src
          ∧ tag = notifyMac (s.key256 (0x4300000000 + d * 0x100000 + 0x40000 + 64 * q)) nonce src d q m ∧ ((s.die d).nonce q).toNat < nonce.toNat
        let n : Instr := .ingressNotify d q src key m nonce tag
        (¬genuine → ∃ t, exec n s = .next t ∧ t.outbox = s.outbox ++ [.reply src false []] ∧ (t.die d).unauth = min ((s.die d).unauth + 1) 0xFFFFFFFF
            ∧ { t.die d with unauth := (s.die d).unauth } = s.die d)
        ∧ (genuine → i.state = 0 → (m - i.tail).toNat < 2 ^ 31 → (m - i.head).toNat ≤ 2 ^ i.slots →
            ∃ t, exec n s = .next t ∧ (t.die d).icb q = { i with tail := m } ∧ (t.die d).nonce q = nonce ∧ t.cur = s.cur
              ∧ t.outbox = s.outbox ++ [.reply src true []])
        ∧ (genuine → i.state = 0 → 2 ^ 31 ≤ (m - i.tail).toNat →
            ∃ t, exec n s = .next t ∧ (t.die d).icb q = { i with state := 1, reason := 3, refused := min (i.refused + 1) 0xFFFFFF })
        ∧ (genuine → i.state ≠ 0 → ∃ t, exec n s = .next t ∧ (t.die d).icb q = { i with refused := min (i.refused + 1) 0xFFFFFF } ∧ t.cur = s.cur))
    ∧ (∀ (c : CtxId) q task v, s.task c = some task →
        let i := (s.die c.die).icb q
        let owned := i.owner = some task.launch
        let becomes (x : Instr) (j : Icb) : Prop := ∃ t, exec x s = .next t ∧ (t.die c.die).icb q = j ∧ (∀ p, p ≠ q → (t.die c.die).icb p = (s.die c.die).icb p)
          ∧ t.task c = some { task with unreplayable := true } ∧ t.mem = s.mem
        (owned → i.state = 0 → (i.tail - v).toNat ≤ 2 ^ i.slots → becomes (.icbHeadWrite c q v) { i with head := v })
        ∧ (owned → i.state = 0 → 2 ^ i.slots < (i.tail - v).toNat → becomes (.icbHeadWrite c q v) i)
        ∧ (owned → i.state = 0 → becomes (.icbErrSet c q) { i with state := 1, reason := 2 })
        ∧ (owned → i.state = 1 → (i.tail - i.head).toNat ≤ 2 ^ i.slots → becomes (.icbErrClear c q) { i with state := 0, reason := 0, refused := 0 })
        ∧ (¬owned → exec (.icbHeadWrite c q v) s = .next (s.trap c 0 0x06 (BitVec.ofNat 64 (0x0C000008 + 64 * q)))
            ∧ ∀ x ∈ [Instr.icbErrSet c q, .icbErrClear c q], exec x s = .next (s.trap c 0 0x06 (BitVec.ofNat 64 (0x0C000010 + 64 * q)))))
    ∧ (∀ q launch, let i := (s.die d).icb q
        let after (x : Instr) (j : Icb) : Prop := ∃ t, exec x s = .next t ∧ (t.die d).icb q = j ∧ (∀ p, p ≠ q → (t.die d).icb p = (s.die d).icb p)
          ∧ { t with dies := s.dies } = s
        s.supervised = true →
        (i.state ≠ 0 → i.wellFormed = true → after (.icbSetRun d q (some launch)) { i with state := 0, reason := 0, refused := 0, owner := some launch })
        ∧ (i.wellFormed = false → after (.icbSetRun d q none) i)
        ∧ after (.icbSetStopped d q) { i with state := 2 })
    ∧ (∀ q (k : BitVec 256), s.supervised = true → ∃ t, exec (.iauthKeyWrite d q k) s = .next t ∧ (t.die d).nonce q = 0
        ∧ t.key256 (0x4300000000 + d * 0x100000 + 0x40000 + 64 * q) = k ∧ t.mem = s.mem)

/-- 15 R326-R329, R339-R341, R344, 14 R410: a reply ends the request of its tag and generation, a late one is counted; a request times out at
TOUT and backs off when it bounces; a verdict ends the accesses parked on its page; an invalidation takes the leaves it names; the registers
with rows of their own take what their rules allow. The model's choices: that a back-off counts the present bounce (log entry 24), for how long
another package's die holds a request (log entry 83), when a TLBFILL and an INVAL take effect (log entry 47), and that COUNTS of the Curator's
station is die 15's (log entry 97). -/
def Obligations.FabricEvents : Prop :=
  ∀ (s : State),
    (∀ station tag gen ok data, station < 12 → (∀ r ∈ s.reqs, r.station = station → r.tag = tag → r.gen ≠ gen) →
        ∃ t, exec (.fabricReply station tag gen ok data) s = .next t ∧ (t.die station).late = min ((s.die station).late + 1) 0xFFFFFFFF
          ∧ { t with dies := s.dies } = s)
    ∧ (∀ r c m (data : List Byte), s.reqs.find? (fun x => x.station == r.station && x.tag == r.tag && x.gen == r.gen) = some r → r.owner = .scu c →
        (s.ctx c).remote = some m → m.tag = r.tag → m.gen = r.gen → s.timedOut r = false → r.denied = true ∨ s.mayAnswer r = true →
          let kept (l : List Req) : List Req := l.map (fun x => { x with taken := false })
          ∃ t, exec (.fabricReply r.station r.tag r.gen true data) s = .next t
            ∧ (t.ctx c).remote = some { m with answer := some (if r.denied then none else some data) } ∧ kept t.reqs = kept (s.reqs.filter (fun x => x != r)) ∧ t.mem = s.mem)
    ∧ (∀ r c m, s.reqs.find? (fun x => x.station == r.station && x.tag == r.tag) = some r → r.owner = .scu c → (s.ctx c).remote = some m →
        m.tag = r.tag → m.gen = r.gen → r.station < 12 →
        let tout := wfld (s.reg (0x4300000000 + r.station * 0x100000 + 0x48)) 0 32 * 2400
          + (if r.path.tpkg = s.pkg then 0 else Config.heldFor r.path.tpkg r.path.tdie r.at_)
        (s.cycle < r.at_ + tout → exec (.requestTimeout r.station r.tag) s = .next s)
        ∧ (r.at_ + tout ≤ s.cycle → ∃ t, exec (.requestTimeout r.station r.tag) s = .next t
            ∧ (t.ctx c).remote = some { m with answer := some none } ∧ t.reqs = s.reqs.filter (fun x => x != r)))
    ∧ (∀ r, s.reqs.find? (fun x => x.station == r.station && x.tag == r.tag) = some r →
        (∀ c, r.path.core = some c → ∀ y ∈ CoreId.slots c, (s.ve y).pend = [] ∧ (s.stream (y.agent .xe)).transfers = []) →
        ((r.retryAt = none ∧ r.bounces = 0 ∧ r.taken = false ∧ r.lost = false ∧ r.denied = false ∧ r.bridged = false) ∨ (∃ n, r.retryAt = some n ∧ n ≤ s.cycle) → ∃ t, exec (.slotRetry r.station r.tag true) s = .next t
            ∧ { r with bounces := r.bounces + 1, retryAt := some (s.cycle + 256 * 2 ^ min (r.bounces + 1) 7) } ∈ t.reqs ∧ { t with reqs := s.reqs } = s)
        ∧ (∀ n busy, r.retryAt = some n → s.cycle < n → exec (.slotRetry r.station r.tag busy) s = .next s)
        ∧ (∀ n, r.retryAt = some n → n ≤ s.cycle → s.linkStopped r.station r.path = false → ∃ t, exec (.slotRetry r.station r.tag false) s = .next t
            ∧ { r with retryAt := none } ∈ t.reqs ∧ { t with reqs := s.reqs } = s)
        ∧ (r.station < 12 → r.at_ + 2 * (wfld (s.reg (0x4300000000 + r.station * 0x100000 + 0x48)) 0 32 * 2400) < s.cycle →
            ∃ t, exec (.slotAgeDiscard r.station r.tag) s = .next t ∧ { r with retryAt := none, lost := true } ∈ t.reqs ∧ { t with reqs := s.reqs } = s))
    ∧ (∀ w tag gen, s.combining.find? (fun x => x.id == w.id) = some w → w.sent = none → w.openAt + 64 ≤ s.cycle → s.freeTag 15 = some (tag, gen) →
        ¬(w.tpkg = s.pkg ∧ w.tdie < 12) →
        let sum : Word := (w.reqs.map (fun x => x.2.2.2.2)).sum
        ∃ t, exec (.combiningWindowClose w.id) s = .next t
          ∧ t.outbox = s.outbox ++ [.slot s.pkg w.key
              (.atomic w.tpkg w.tdie w.addr w.size 0 (BitVec.ofNat 64 (sum.toNat % 2 ^ (8 * w.size))) 0 true 15 tag gen)]
          ∧ { w with sent := some (tag, gen) } ∈ t.combining ∧ t.mem = s.mem)
    ∧ (∀ w, s.combining.find? (fun x => x.id == w.id) = some w → w.sent = none → w.openAt + 64 ≤ s.cycle → w.tpkg = s.pkg → w.tdie < 12 →
        (s.die w.tdie).resetAt = none → s.ecc = [] → (∀ src, s.admits w.tdie src w.key w.addr w.size true true = true) → (∀ x ∈ w.reqs, x.2.2.1 / 16 ≠ s.pkg) →
        let at_ := 0x4600000000 + w.tdie * 0x10000000 + w.addr
        let sum : Word := (w.reqs.map (fun x => x.2.2.2.2)).sum
        ∃ t, exec (.combiningWindowClose w.id) s = .next t
          ∧ t.rdN at_ w.size = natLe w.size (s.rdNat at_ w.size + sum.toNat % 2 ^ (8 * w.size))
          ∧ (∀ y, (y < at_ ∨ at_ + w.size ≤ y) → t.rd y = s.rd y) ∧ (∀ x ∈ t.combining, x.id ≠ w.id)
          ∧ t.outbox.length = s.outbox.length + w.reqs.length)
    ∧ (∀ d idx (e : ParkEntry), s.supervised = true → (s.die d).parked = [e] → e.index = some idx →
        (∀ c, e.owner = .scu c → ∃ t, exec (.fresRetry d idx) s = .next t ∧ (t.die d).parked = [] ∧ (t.ctx c).parked = .again ∧ (t.ctx c).pc = (s.ctx c).pc)
        ∧ (∀ a id x, e.owner = .engine a id → a.kind = .ve → id ≠ 0 → (s.ve a.ctx).pend = [x] → x.id = id → x.failed = none →
            ∀ y ∈ [(Instr.fresFail05 d idx, 0x05), (.fresFail06 d idx, 0x06)],
              ∃ t, exec y.1 s = .next t ∧ (t.die d).parked = []
                ∧ (t.ve a.ctx).pend = [{ x with parked := false, failed := some (y.2, BitVec.ofNat 64 e.va) }]))
    ∧ (∀ d va asid level leaf, s.supervised = true → wbit leaf 0 = true → wbit leaf 1 = true → pteMalformed leaf level = false → 2 ≤ level → level ≤ 4 →
        ∃ t, exec (.tlbfill d va asid level leaf) s = .next t ∧ (t.die d).tlb = (⟨asid, va, level, leaf⟩ :: (s.die d).tlb).take 16384
          ∧ { t with dies := s.dies } = s)
    ∧ (∀ d asid, s.supervised = true → (s.die d).inval = none →
        ∀ e ∈ [(Instr.invalAll d, ((0, 0, 0, 0, 0) : Inval)), (.invalAsid d asid, (1, asid, 0, 0, 0)),
               (.invalPage d asid, (2, asid, wfld (s.fab d 0x10) 16 40 * 2 ^ 16, wfld (s.fab d 0x18) 16 21 * 2 ^ 16, wfld (s.fab d 0x18) 0 2))],
          ∃ t, exec e.1 s = .next t ∧ (t.die d).inval = some e.2 ∧ (t.die d).invalDone = false ∧ { t with dies := s.dies } = s)
    ∧ (∀ d i, (s.die d).inval = some i → ∃ t, exec (.invalComplete d) s = .next t ∧ (t.die d).inval = none ∧ (t.die d).invalDone = true
        ∧ (∀ x, x ∈ (t.die d).tlb ↔ x ∈ (s.die d).tlb ∧ Inval.takes i x = false) ∧ (s.order = {} → t.mem = s.mem)
        ∧ ∀ c, c.die ≠ d → t.core c = s.core c)
    ∧ (∀ d, d < 12 → s.supervised = true →
        ∃ t, exec (.countsClear d) s = .next t ∧ (t.die d).late = 0 ∧ (t.die d).unauth = 0 ∧ { t with dies := s.dies } = s)
    ∧ (s.supervised = true → exec (.countsClear 15) s
        = .next { s with cur := { s.cur with late := 0 }, power := { s.power with counted := 0 } })
    ∧ (∀ p v, s.supervised = true → p < 4 → s.partActive p = false →
        let f := wfld v 0 4
        let l := wfld v 4 4
        (wbit v 8 = false ∨ f ≤ l ∧ l ≤ 11 ∧ ∀ q, q < 4 → q ≠ p → ∀ d ∈ s.partDies q, d < f ∨ l < d) →
          exec (.partWrite p v) s = .next (s.setReg (0x4301000000 + 16 * p) (v &&& 0x1FF)))
    ∧ (∀ p v, s.partActive p = true → exec (.partWrite p v) s = .next s)
    ∧ (∀ v, s.supervised = true → (wfld v 0 16 ≤ wfld v 16 16 → exec (.pvallotWrite v) s = .next { s with pvFirst := wfld v 0 16, pvLast := wfld v 16 16 })
        ∧ (wfld v 16 16 < wfld v 0 16 → exec (.pvallotWrite v) s = .next s)
        ∧ exec (.bypassWrite v) s
          = .next { s with service := { s.service with bypass := v.toNat % 2 ^ 24, left := s.service.left ||| v.toNat % 2 ^ 24 } })
    ∧ (∀ u addr bs, s.ecc = [] →
        let inside : Prop := ∀ i, i < bs.length → (addr + i) / 4096 < 1024 ∧ (s.queue ((addr + i) / 4096)).state ≠ 0
        ((u = true → bs.length ≤ 256) → inside → ∃ t, exec (.externalRingWrite addr ⟨u, bs⟩) s = .next t ∧ t.rdN (0x4200000000 + addr) bs.length = bs ∧ { t with mem := s.mem } = s)
        ∧ (¬inside ∨ u = true ∧ 256 < bs.length → exec (.externalRingWrite addr ⟨u, bs⟩) s = .next s))

/-! ### Alarms and resets -/

/-- 16 R346-R364, 15 R343: a watchdog that has counted to WDT abandons a blocked SCU instruction with cause 0x0E, or notes an engine's alarm;
an engine that is reset goes on from its last marks; a core reset clears the core's slots and posts 0x0E; a pre-emption stops the engines at
their marks; an abort frees the slot; a failing link stops, posts 0x13 for each of its partitions and freezes their tasks. The model's choices: a
pre-emption of a frozen task is recorded as a later trap (log entry 26), the doorbell and the docent's PARK (log entries 54 and 39), what a
package reset leaves (log entry 41), and the die, core and slot that a link's entry names (log entry 48). -/
def Obligations.ResetEvents : Prop :=
  ∀ (s : State),
    (∀ (ag : AgentId), s.coreRuns ag.coreId = true →
      let k := s.core ag.coreId
      let limit := k.wdt.getD ag.kind.num 0
      (ag.kind = .scu → ag.slot < 4 → (s.ctx ag.ctx).blocked = true → limit ≤ (s.ctx ag.ctx).wd →
        exec (.watchdogExpiry ag) s = .next (s.trap ag.ctx 0 0x0E 0x100))
      ∧ (ag.kind ≠ .scu → k.wd.getD (ag.kind.num - 1) 0 < limit → exec (.watchdogExpiry ag) s = .next s)
      ∧ (ag.kind ≠ .scu → limit ≤ k.wd.getD (ag.kind.num - 1) 0 → k.pendReset = [] →
          ∃ t, exec (.watchdogExpiry ag) s = .next t ∧ (t.core ag.coreId).pendReset = [(ag.kind.num, 0, s.duty.testBit 0)] ∧ { t with cores := s.cores } = s)
      ∧ (ag.kind ≠ .scu → k.pendReset = [] → k.alarms = [] → ∀ e ∈ [(Instr.parityAlarm ag.coreId (.unit ag.kind ag.slot), 1),
            (.protocolAlarm ag.coreId (.unit ag.kind ag.slot), 2)],
          ∃ t, exec e.1 s = .next t ∧ (t.core ag.coreId).pendReset = [(ag.kind.num, e.2, s.duty.testBit 0)] ∧ (t.core ag.coreId).alarms = [(ag.kind.num, s.cycle)]
            ∧ { t with cores := s.cores } = s)
      ∧ (ag.kind ≠ .scu → k.pendReset = [(ag.kind.num, 0, false)] → s.resetWaits ag.coreId ag.kind = false →
          k.wdReset.getD (ag.kind.num - 1) false = false →
            ∃ t, exec (.engineReset ag.coreId ag.kind) s = .next t ∧ (t.core ag.coreId).pendReset = [] ∧ (t.core ag.coreId).wd.getD (ag.kind.num - 1) 0 = 0
              ∧ (t.core ag.coreId).wdReset.getD (ag.kind.num - 1) false = true
              ∧ (∀ c ∈ ag.coreId.slots, (t.stream (c.agent ag.kind)).staged = [] ∧ (t.stream (c.agent ag.kind)).transfers = []
                  ∧ (t.stream (c.agent ag.kind)).queue = (s.stream (c.agent ag.kind)).queue)
              ∧ ∀ r idx, ∀ c ∈ ag.coreId.slots, (s.stream (c.agent ag.kind)).current = some r → r.resume = some idx →
                  (t.stream (c.agent ag.kind)).idx = idx ∧ (t.stream (c.agent ag.kind)).epc = r.iaddr ∧ (t.stream (c.agent ag.kind)).inBody = false)
      ∧ (ag.kind ≠ .scu → k.rolling.getD (ag.kind.num - 1) false = false →
          (s.cycle < k.rollAt.getD (ag.kind.num - 1) 0 + s.rollPeriod ag.coreId ag.kind → exec (.rollingReset ag.coreId ag.kind) s = .next s)
          ∧ (k.rollAt.getD (ag.kind.num - 1) 0 + s.rollPeriod ag.coreId ag.kind ≤ s.cycle → s.allAtMark ag.coreId ag.kind = false →
              ∃ t, exec (.rollingReset ag.coreId ag.kind) s = .next t ∧ (t.core ag.coreId).rolling.getD (ag.kind.num - 1) false = true
                ∧ (t.core ag.coreId).rollAt.getD (ag.kind.num - 1) 0 = s.cycle ∧ { t with cores := s.cores } = s)))
    ∧ (∀ (co : CoreId), co.die < 12 → co.core < 64 → s.supervised = true → (s.core co).crst = none →
        (s.die co.die).resetAt = none → (∀ c ∈ co.slots, s.task c = none) → s.cur.tqSet = true → s.cur.tqrd = s.cur.tqwr → s.cur.tqwr < 2 ^ 32 - 1 →
          ∃ t, exec (.coreReset co) s = .next t ∧ (t.core co).crst = some s.cycle ∧ (∀ c ∈ co.slots, t.ctx c = {} ∧ ∀ k ∈ engineKinds, t.stream (c.agent k) = {})
            ∧ t.ctx (co.ctx 4) = {} ∧ t.cur.tqwr = s.cur.tqwr + 1 ∧ (∀ c, c ≠ co → t.core c = s.core c)
            ∧ ∀ y, y < 32768 → t.rd (ispaceAt co y) = 0)
    ∧ (∀ (co : CoreId), (s.core co).crst ≠ none → (s.die co.die).resetAt = none →
        ∃ t, exec (.coreResetComplete co) s = .next t ∧ (t.core co).crst = none ∧ (t.core co).tdlg = (s.tablesOf co).tdlg &&& tdlgMask
          ∧ (t.core co).wdt = (s.tablesOf co).wdt.map (· % 2 ^ 32) ∧ { t with cores := s.cores } = s)
    ∧ (∀ (co : CoreId) n, (s.core co).crst = some n → s.cycle < n + 2400000 → exec (.coreResetTimeout co) s = .next s)
    ∧ (∀ (co : CoreId) n, (s.core co).crst = some n → n + 2400000 ≤ s.cycle → (s.die co.die).resetAt = none →
        exec (.coreResetTimeout co) s = .next (s.dieReset co.die))
    ∧ (∀ d, d < 12 → s.supervised = true → (s.die d).resetAt = none →
        ∃ t, exec (.dieReset d) s = .next t ∧ (t.die d).resetAt = some s.cycle ∧ (t.die d).tlb = [] ∧ (∀ c, c < 64 → (t.core ⟨d, c⟩).crst = some s.cycle))
    ∧ (∀ d, (s.die d).resetAt ≠ none → ∃ t, exec (.dieResetComplete d) s = .next t ∧ (t.die d).resetAt = none ∧ (∀ c, c < 64 → (t.core ⟨d, c⟩).crst = none)
        ∧ t.mem = s.mem)
    ∧ (∀ d n, (s.die d).resetAt = some n → s.cycle < n + 24000000 → exec (.dieResetTimeout d) s = .next s)
    ∧ (s.cur.takeover = false → s.mode = .running → ∀ i d n, (i = Instr.packageReset ∧ (s.monitored = true ∨ s.cur.pkgReset = true) ∨ i = .dieResetTimeout d ∧ (s.die d).resetAt = some n ∧ n + 24000000 ≤ s.cycle) →
        ∃ t, exec i s = .next t ∧ t.launches = [] ∧ t.vault = [] ∧ t.cycles = 0
          ∧ (∀ d, d < 12 → (t.die d).resetAt = none) ∧ ∀ d c x, d < 12 → c < 64 → x < 5 → t.ctx ⟨d, c, x⟩ = {})
    ∧ (s.cur.takeover = true → s.monitored = true → exec .packageReset s = .next { s with cur := { s.cur with pkgReset := true } })
    ∧ (∀ p, p < 4 → s.supervised = true → ∃ t, exec (.partitionReset p) s = .next t ∧ (∀ l ∈ t.launches, l.part ≠ p)
        ∧ ∀ d ∈ s.partDies p, (t.die d).insts = [] ∧ (t.die d).resetAt = none)
    ∧ (∀ c task, s.task c = some task → s.supervised = true → task.preempted = false → task.preempting = false →
        (task.frozen = false → (∀ k ∈ engineKinds, s.behindWalk (c.agent k) = false) →
          ∃ t, exec (.preemptRequest c) s = .next t ∧ t.task c = some { task with preempting := true } ∧ (t.ctx c).pc = (s.ctx c).pc
            ∧ (t.ctx c).blocked = false ∧ t.streams = s.streams ∧ t.mem = s.mem)
        ∧ (task.frozen = true → ∃ t task', exec (.preemptRequest c) s = .next t ∧ t.task c = some task' ∧ task'.preempting = false
            ∧ task'.laterCount = min (task.laterCount + 1) 15))
    ∧ (∀ c task, s.task c = some task → task.preempting = true → (∀ k ∈ engineKinds, (s.stream (c.agent k)).active = false) →
        (∀ k ∈ engineKinds, s.behindWalk (c.agent k) = false) →
        exec (.preemptionComplete c) s = .next ((s.setTask c (some { task with preempted := true })).trap c 5 0x11 0))
    ∧ (∀ c task afail, s.task c = some task → s.hasCore c.coreId = true → c.ctx < 4 → s.supervised = true →
        ∃ t, exec (.slotAbort c afail) s = .next t ∧ t.task c = none ∧ t.ctx c = {} ∧ (∀ k ∈ engineKinds, t.stream (c.agent k) = {})
          ∧ (t.core c.coreId).afail = afail)
    ∧ (∀ l, (s.link l).failed = false → (s.link l).parts % 16 = 0 → ∃ t, exec (.linkTagFailure l) s = .next t
        ∧ t.link l = { s.link l with failed := true } ∧ { t with links := s.links, reqs := s.reqs, freeCtr := s.freeCtr } = s
        ∧ t.reqs.map (fun r => { r with lost := false }) = s.reqs.map (fun r => { r with lost := false })
        ∧ ∀ r ∈ s.reqs, r.retryAt.isSome = true → r ∈ t.reqs)
    ∧ (∀ l, (s.link l).failed = false →
        ∃ t, exec (.linkTagFailure l) s = .next t ∧ (t.link l).failed = true
          ∧ (∀ c task, s.task c = some task → (∃ p, p < 4 ∧ (s.link l).parts.testBit p = true ∧ c.die ∈ s.partDies p) → task.frozen = false →
              ∃ task', t.task c = some task' ∧ task'.frozen = true ∧ task'.frozenSrc = 5 ∧ task'.frozenCause = 0x13)
          ∧ (∀ c, (∀ p, p < 4 → (s.link l).parts.testBit p = true → c.die ∉ s.partDies p) → t.task c = s.task c)
          ∧ (∀ p, p < 4 → (s.link l).parts % 16 = 2 ^ p → s.cur.tqSet = true → s.cur.tqrd = s.cur.tqwr → s.cur.tqwr < 2 ^ 32 - 1 → s.ecc = [] →
              (∀ c, s.task c ≠ none → c.core < 64 ∧ c.ctx < 4) →
              t.cur.tqwr = s.cur.tqwr + 1 ∧ Out.irqSupervisor ∈ t.outbox
              ∧ t.rdN (2 ^ 51 + (s.cur.tqbase + s.cur.tqwr % 4096 * 32)) 32
                  = natLe 8 (l % 2 ^ 64) ++ natLe 8 (0x13 * 2 ^ 32 + 15 * 2 ^ 40 + 5 * 2 ^ 53) ++ natLe 8 0 ++ natLe 8 s.cur.tqwr))
    ∧ (∀ l, ∃ t key, exec (.linkEpochFlip l) s = .next t
        ∧ t.link l = { s.link l with keys := setNth (s.link l).keys (if (s.link l).epoch then 0 else 1) key, epoch := !(s.link l).epoch, groups := 0,
                                     rolled := true }
        ∧ { t with links := s.links, freeCtr := s.freeCtr } = s)
    ∧ (∀ l n, ∃ t, exec (.linkKeyWear l n) s = .next t ∧ (t.link l).groups = max (s.link l).groups n
        ∧ (Out.irqPairD ∈ t.outbox.drop s.outbox.length ↔ (s.link l).groups < 2 ^ 39 ∧ 2 ^ 39 ≤ n))
    ∧ (∀ a, a < 2 ^ 60 → ∃ t, exec (.softError a) s = .next t ∧ (∀ y, y ∈ t.ecc ↔ y ∈ s.ecc ∨ y = a / 8 * 8) ∧ { t with ecc := s.ecc } = s)
    ∧ (∀ n, ∃ t, exec (.softError (2 ^ 60 + n)) s = .next t ∧ (∀ y, y ∈ t.vaultBad ↔ y ∈ s.vaultBad ∨ y = n) ∧ { t with vaultBad := s.vaultBad } = s)
    ∧ (∀ co, s.supervised = true → (s.core co).docBusy = false → ∃ t, exec (.doorbell co) s = .next t
        ∧ t.ctx (co.ctx 4) = (let y := s.ctx (co.ctx 4); if y.park then { y.complete 2 with park := false } else y)
        ∧ { t with ctxs := s.ctxs } = s)

/-! ### Power, the Curator, bring-up -/

/-- 17 R370-R387: a request grants the least of the accepted ones; the ladder moves one step at a time in the times of its rules; a bucket, a
sensor and the thermal control take what their rules say; a power failure ends in the module being off, with the image of its state in one slot of the
flash and the rest of the flash as it was; of the other
memories, whose contents are lost with the power, nothing is said. The model's choices: a request changes the level
at once and DEPTH only with the step that follows as time passes (log entry 29), the dropped message of FABEN 0, the windows of a raise and the depth taken as the greater (log entry 34), the readings of the sensor rules (log entry 35), the order
of the bytes of a tag (log entry 8), and what the archive does (log entry 36). -/
def Obligations.PowerEvents : Prop :=
  ∀ (s : State) (n : Nat),
    let p := s.power
    let least (pin fab fw : Nat) : Nat := min (if p.pinen then pin else 7) (min (if p.faben then fab else 7) fw)
    exec (.pstepRequest n) s = .next { s with power := { p with pinreq := n % 8, level := least (n % 8) p.fabreq p.fwreq } }
    ∧ exec (.fwreqWrite n) s = .next { s with power := { p with fwreq := n % 8, level := least p.pinreq p.fabreq (n % 8) } }
    ∧ (∀ (nonce tag : Word) (reserved : Bool),
        let genuine := tag = gmac (s.key256 0x4400000020) (beBytes 8 nonce.toNat ++ beBytes 4 0) (natLe 4 n ++ natLe 4 0 ++ natLe 8 nonce.toNat)
        (reserved = false → p.faben = true → n < 8 → genuine → p.pnonce.toNat < nonce.toNat →
          exec (.powerMessage n nonce tag reserved) s
            = .next { s with power := { p with pnonce := nonce, fabreq := n, level := least p.pinreq n p.fwreq } })
        ∧ (reserved = true ∨ p.faben = false ∨ 8 ≤ n ∨ ¬genuine ∨ nonce.toNat ≤ p.pnonce.toNat →
            exec (.powerMessage n nonce tag reserved) s = .next { s with power := { p with counted := min (p.counted + 1) 0xFFFFFFFF } }))
    ∧ (∀ a b, p.downAt = some a → p.overSince = some b →
        (a + 1200000 ≤ s.cycle → b + 240000 ≤ s.cycle → p.lastRaise + 120000 ≤ s.cycle → p.depth < 7 →
          exec .ladderRaise s = .next { s with power := { p with depth := p.depth + 1, lastRaise := s.cycle } })
        ∧ (s.cycle < a + 1200000 ∨ s.cycle < b + 240000 ∨ s.cycle < p.lastRaise + 120000 ∨ 7 ≤ p.depth → exec .ladderRaise s = .next s))
    ∧ (∀ u, p.underSince = some u → s.assistedPower = false → 0 < p.depth → u + 240000 ≤ s.cycle → p.lastFall + 240000 ≤ s.cycle →
        (∀ e ∈ s.cores, e.2.pendingStep = []) → exec .ladderRelease s = .next { s with power := { p with depth := p.depth - 1, lastFall := s.cycle } })
    ∧ (∀ a, p.stepAt = some a → exec .stepLimitExpiry s = .next (if a + 2400000 ≤ s.cycle then { s with power := { p with stepAt := none } } else s))
    ∧ (s.duty.testBit 4 = true → s.cur.takeover = false → exec (.depthWrite n) s = .next { s with power := { p with depth := n % 8 } })
    ∧ (s.duty.testBit 4 = false → exec (.depthWrite n) s = .next s)
    ∧ (∀ co cls (v : Word), cls < 5 → s.supervised = true → (s.core co).bucketNew = [] → let b := ((s.core co).buckets.getD cls {}).refill 1
        ∃ t, exec (.bucketWrite co cls v) s = .next t ∧ { t with cores := s.cores } = s ∧ (t.core co).buckets = (s.core co).buckets
          ∧ let b' := ((t.core co).refill 1).getD cls {}
            b'.cap = v.toNat % 2 ^ 16 ∧ b'.rate = (if wfld v 16 12 = 0 then b.rate else wfld v 16 12) ∧ b'.bal = min b.bal (b'.cap * 16))
    ∧ (∀ d (raws : List (BitVec 16)), d < 12 → s.service.scal = [] →
        (s.cycle < s.power.sampled.getD d 0 + 240000 → exec (.sensorSample d raws) s = .next s)
        ∧ (s.power.sampled.getD d 0 + 240000 ≤ s.cycle →
        ∃ t, exec (.sensorSample d raws) s = .next t ∧ t.power.sampled.getD d 0 = s.cycle ∧ (∀ i, i < 16 → (t.sensor d i).raw = (raws.getD i 0).toInt)
          ∧ (∀ i, i < 16 → (t.sensor d i).excl = false → ((t.sensor d i).raw < -160 ∨ 2240 < (t.sensor d i).raw) →
              (t.sensor d i).status = 1 ∧ (t.sensor d i).used = 2240)
          ∧ (degrees s.power.tjtrip ≤ t.dieTemp d → (t.die d).tripped = true) ∧ t.mem = s.mem))
    ∧ (∀ d i (v : Word), let x := s.sensor d i
        s.duty.testBit 5 = false → d < 12 →
          ∃ t, exec (.sensWrite d i v) s = .next t ∧ t.sensor d i = { x with alm := if wbit v 36 then false else x.alm }
            ∧ (t.die d).tripped = (if degrees p.tjtrip ≤ s.dieTemp d then true else if s.dieTemp d < degrees p.tjthr then false else (s.die d).tripped)
            ∧ { t with sensors := s.sensors, dies := s.dies } = s)
    ∧ (∀ d, degrees p.tjthr ≤ s.dieTemp d → s.dieTemp d < degrees p.tjtrip → (s.die d).overTemp + 2400000 ≤ s.cycle →
        ∃ t, exec (.thermalDepthRaise d) s = .next t ∧ (t.die d).depth = min 7 (max (s.die d).depth p.depth + 1) ∧ (t.die d).overTemp = s.cycle
          ∧ (t.die d).tripped = (s.die d).tripped)
    ∧ (∀ d, s.dieTemp d < degrees p.tjthr - degrees 5 → p.depth < (s.die d).depth → (s.die d).overTemp + 24000000 ≤ s.cycle →
        ∃ t, exec (.thermalDepthFall d) s = .next t ∧ (t.die d).depth = (s.die d).depth - 1 ∧ { t with dies := s.dies } = s)
    ∧ (s.mode ≠ .off → ∃ t, exec (.pfail n) s = .next t ∧ t.mode = .off ∧ (12000 ≤ p.charge → t.power.archseq = p.archseq + 1)
        ∧ (t.power.archseq = p.archseq ∨ t.power.archseq = p.archseq + 1) ∧ t.outbox.getLast? = some .poweredOff
        ∧ (s.ecc = [] → s.cur.mqbase + 2 ^ 20 ≤ 2 ^ 51 → s.cur.tqbase + 2 ^ 20 ≤ 2 ^ 51 →
            let u := s.post ⟨0x12, 0, 0, 15, 0, 0, 5, 0⟩
            let at_ := 2 ^ 52 + u.archiveSlot
            (∀ y, 2 ^ 52 ≤ y → (y < at_ ∨ at_ + (u.archiveImage n).length ≤ y) → t.rd y = s.rd y)
            ∧ (12000 ≤ p.charge → t.rdN at_ 8 = natLe 8 (p.archseq + 1))))
    ∧ (s.mode = .off → exec (.pfail n) s = .next s)

/-- 13 R274-R277, R283, R290, R409, 18 R388-R396: the trap queues' read counts, the takeover of a failing pair, DUTY, the supervisor's register
writes, attestation, the boot chain, live update and live repair. The model's choices: conservator tables are loaded through DOCUPD (log
entry 49), held reports are posted again in order (38), a SUPSWAP without a standby is ignored (37) and what its image extends (30), the docent's
registers after DOCUPD (39), a register access of another size (32), the refresh at a takeover (86), the journal's records (84), pair B's copy
(100), the layout of the flash and of the tables, the stages and what a peer must report (95), where a hart starts (96), and the order of the bytes of a
digest (8). -/
def Obligations.CuratorEvents : Prop :=
  ∀ (s : State),
    let q := s.cur
    let up := s.supervised = true
    (∀ v : BitVec 32, q.held = [] →
        (up → (v.toNat + 2 ^ 32 - q.tqrd) % 2 ^ 32 ≤ (q.tqwr + 2 ^ 32 - q.tqrd) % 2 ^ 32 → exec (.tqrdWrite v) s = .next { s with cur := { q with tqrd := v.toNat } })
        ∧ (s.monitored = true → (v.toNat + 2 ^ 32 - q.mqrd) % 2 ^ 32 ≤ (q.mqwr + 2 ^ 32 - q.mqrd) % 2 ^ 32 →
            exec (.mqrdWrite v) s = .next { s with cur := { q with mqrd := v.toNat } }))
    ∧ (s.mode = .running → exec .supervisorWatchdogRefresh s
        = .next (if s.cycle < q.refreshed + 4800000 then { s with cur := { q with refreshed := s.cycle } } else s))
    ∧ (up → s.cycle < q.refreshed + 4800000 → exec .supervisorWatchdogExpiry s = .next s)
    ∧ (up → q.pairs = #v[.active, .standby, .service, .service] →
        (q.refreshed + 4800000 ≤ s.cycle → exec .supervisorWatchdogExpiry s
            = .next { s with cur := { q with pairs := #v[.held, .standby, .service, .service], takeover := true, planned := false, swapAsked := false,
                                                                refreshed := s.cycle } })
        ∧ exec (.lockstepMismatch 0) s
            = .next { s with cur := { q with pairs := #v[.held, .standby, .service, .service], takeover := true, planned := false, swapAsked := false,
                                              refreshed := s.cycle } }
        ∧ exec (.lockstepMismatch 2) s
            = .next { s with cur := { q with pairs := #v[.active, .standby, .stopped, .service] }, outbox := s.outbox ++ [.irqMonitor] }
        ∧ (q.swapAsked = false → ∃ t, exec .supswap s = .next t ∧ t.cur = { q with swapAsked := true } ∧ t.mem = s.mem)
        ∧ (∀ pa v, q.swapAsked = true → ∃ t, exec (.journalCommit pa v) s = .next t ∧ t.cur.takeover = true ∧ t.cur.planned = true
            ∧ t.cur.journal.getLast? = some (pa, v)))
    ∧ (∀ pa v, up → q.swapAsked = false → q.journal.length < 16384 →
        ∃ t, exec (.journalCommit pa v) s = .next t
          ∧ t.cur = { q with journal := q.journal ++ [(pa, v)], records := q.records + 1, copy := q.copy.filter (fun e => e.1 != pa) ++ [(pa, v)],
                             committedRd := if pa = 0x4301000290 then v.toNat % 2 ^ 32 else q.committedRd }
          ∧ t.rdNat (journalAt q.records + 56) 8 = q.records % 2 ^ 64
          ∧ ∀ y, (y < journalAt q.records ∨ journalAt q.records + 64 ≤ y) → t.rd y = s.rd y)
    ∧ (∀ v : Word, q.takeover = true → q.pkgReset = false → q.pairs = #v[.held, .standby, .service, .service] → q.held = [] →
        10 ≤ v.toNat → v.toNat ≤ 10000 → q.copy = [(0x4300000048, v)] →
          ∃ t, exec .takeoverComplete s = .next t ∧ t.cur.takeover = false ∧ t.reg 0x4300000048 = v ∧ t.cur.tqrd = q.committedRd)
    ∧ (q.takeover = true → q.pkgReset = false → q.pairs = #v[.held, .standby, .service, .service] → q.held = [] →
        (∀ e ∈ q.copy, e.1 = 0x4301000290) →
        ∃ t, exec .takeoverComplete s = .next t ∧ t.cur.takeover = false ∧ t.cur.tqrd = q.committedRd
          ∧ t.cur.pairs = #v[if q.planned then .standby else .stopped, .active, .service, .service] ∧ t.outbox = s.outbox ++ [.irqPairD]
          ∧ (q.planned = false → t.mem = s.mem)
          ∧ (q.planned = true → s.ecc = [] →
              let x := q.sloushAt.getD 1 {}
              let image : List Byte := (List.range x.len).map (fun i => s.rd (if x.flash then 2 ^ 52 + (x.at_ + i) else 2 ^ 51 + (x.at_ + i) % 0x300000))
              t.rdN (2 ^ 51 + Config.imageBase 5 % 0x300000) x.len = image ∧ t.cur.sloush.getD 0 0 = sha384 image)
          ∧ ∀ pa, journaled pa = true → t.reg pa = Table.get (regReset pa) q.base.regs pa)
    ∧ (∀ i, i < 4 → q.pairs.getD i .stopped = .stopped →
        let start : Hart := { pc := BitVec.ofNat 64 (2 ^ 51 + Config.imageBase 1 % 0x300000) }
        exec (.selfTestComplete i) s = .next { s with cur := { q with pairs := q.pairs.setIfInBounds i (if i < 2 then .standby else .service), harts := q.harts.setIfInBounds i start } })
    ∧ (∀ v : Word, up → wbit v 1 = false → exec (.dutyWrite v) s = .next { s with duty := v.toNat % 256 })
    ∧ (s.mode = .running → q.pairs.getD 3 .stopped = .service →
        ∀ e ∈ [(Instr.getVersion, 0, []), (.getCapabilities, 1, []), (.negotiateAlgorithms, 2, []), (.getDigests, 3, []), (.getCertificate, 4, [])],
          exec e.1 s = .next { s with outbox := s.outbox ++ [.spdm (Config.spdmAnswer e.2.1 e.2.2)] })
    ∧ (s.mode = .running → q.pairs.getD 3 .stopped = .service →
        (∀ nonce : BitVec 256, exec (.challenge nonce) s = .next { s with outbox := s.outbox ++ [.spdm (Config.spdmAnswer 5
            (beBytes 32 nonce.toNat ++ (s.service.meas.toList.map (fun m => beBytes 48 m.toNat)).flatten))] })
        ∧ ∀ i, 1 ≤ i → i ≤ 16 → exec (.getMeasurements i) s = .next { s with outbox := s.outbox ++ [.spdm (Config.spdmAnswer 6
            (natLe 1 i ++ beBytes 48 (s.service.meas.getD (i - 1) 0).toNat))] })
    ∧ (∀ (b : ColdBoot), b.inputGood = false ∨ b.charge < 12000 → exec (.coldReset b) s = .next s)
    ∧ (∀ (b : ColdBoot), b.inputGood = true → 12000 ≤ b.charge → s.ecc = [] →
        let f := s.service.flash
        let x (i : Nat) : ImageRef := f.images.getD i {}
        let byte (a : Nat) : Byte := if a < 2 ^ 52 then s.rd (2 ^ 52 + a) else 0
        let bytes (a n : Nat) : List Byte := (List.range n).map (fun i => byte (a + i))
        let number (a : Nat) : Nat := beNat (bytes a 48)
        let key (a : Nat) : Nat × Nat := (number a, number (a + 48))
        let image (i : Nat) : List Byte := bytes (x i).at_ (x i).len
        let good (i : Nat) : Prop := s.service.fused.getD i 0 ≤ leNat (bytes ((x i).at_ + (x i).ver) 4) ∧ (x i).ver + 4 ≤ (x i).len
          ∧ ecdsaVerify (if i = 0 then key f.root else key ((x 0).at_ + f.keyIn)) (image i) (number (x i).sig) (number ((x i).sig + 48)) = true
          ∧ (i = 0 → sha384 (bytes f.root 96) = s.service.rootHash)
        let digest (i : Nat) : BitVec 384 := sha384 (List.replicate 48 0 ++ beBytes 48 (sha384 (image i)).toNat)
        let docents (t : State) : Prop := ∀ c ∈ allCores, ∀ y, y < 8192 → y < (x 3).len → t.rd (docentAt c y) = byte ((x 3).at_ + y)
        (∀ i, i < 5 → (x i).flash = true ∧ (x i).len ≤ 2 ^ 40) →
        (∀ n, n < 5 → (∀ i, i < n → good i) → ¬good n →
          ∃ t, exec (.coldReset b) s = .next t ∧ t.mode = .reset ∧ t.service.failImage = n + 1 ∧ t.service.stage = 0 ∧ t.tasks = []
            ∧ (∀ i, n ≤ i → i < 16 → t.service.meas.getD i 0 = 0) ∧ (∀ i, i < n → t.service.meas.getD i 0 = digest i) ∧ (n = 4 → docents t))
        ∧ ((∀ i, i < 5 → good i) →
          ∃ t, exec (.coldReset b) s = .next t ∧ t.mode = .running ∧ t.service.stage = 1 ∧ t.service.failImage = 0 ∧ t.tasks = []
            ∧ t.cur.pairs = #v[.stopped, .stopped, .stopped, .service] ∧ t.service.tables = tablesIn (image 4)
            ∧ t.service.imageKey = key ((x 0).at_ + f.keyIn) ∧ (∀ i, i < 5 → t.service.meas.getD i 0 = digest i) ∧ docents t))
    ∧ (∀ (r : StageResult), s.mode = .running →
        let v := s.service
        let after (n : Nat) (f : State → Prop) : Prop := (v.stage + 1 = n → (s.takeCurator (.stage r)).service.stage = n ∧ f (s.takeCurator (.stage r)))
          ∧ (v.stage + 1 ≠ n ∨ v.stage = 0 → s.takeCurator (.stage r) = s)
        match r with
        | .start => after 2 (fun t => t.cur.pairs = #v[.active, .standby, .service, .service] ∧ t.cur.refreshed = s.cycle)
        | .vats dies => after 3 (fun t => t.service.trained = dies % 2 ^ 12)
        | .ring _ => after 4 (fun t => t.mem = s.mem ∧ t.cores = s.cores)
        | .selfTest dies vaults _ => after 5 (fun t => t.service.tested = dies % 2 ^ 12 ∧ t.service.vaultFail = 0xFFF ^^^ vaults % 2 ^ 12
            ∧ t.vault = [] ∧ (∀ d y, d < 12 → y < 0x0C000000 → t.rd (0x4600000000 + d * 0x10000000 + y) = 0)
            ∧ ∀ c ∈ allCores, (t.core c).tdlg = v.tables.tdlg &&& tdlgMask ∧ (t.core c).wdt = v.tables.wdt.map (· % 2 ^ 32))
        | .masks _ => after 6 (fun t => t.service.livedie = (v.trained &&& v.tested &&& (0xFFF ^^^ v.vaultFail)) ∧ t.service.livecore = v.testedCores)
        | .links peers => peers.length = 1 → after 7 (fun t => ∀ l key meas, (l, key, meas) ∈ peers →
            (t.link l).down = !Config.peerAccepted l meas ∧ (t.link l).keys.getD 0 0 = key)
        | .queues => after 8 (fun t => t.cur = s.cur))
    ∧ (∀ (d : Nat) (v : Word), up →
        (d < 12 → ∃ t, exec (.liveMaskWrite d v) s = .next t ∧ t.service.livecore = s.service.livecore.setIfInBounds d v.toNat
          ∧ { t with service := s.service } = s
          ∧ ∀ c, c < 64 → v.toNat.testBit c = true → (s.service.livecore.getD d 0).testBit c = false → 
              ∀ i : Inst, i.set ≠ none → t.coreOpen ⟨d, c⟩ i = false)
        ∧ exec (.liveMaskWrite 12 v) s
            = .next { s with service := { s.service with livedie := v.toNat % 2 ^ 12 - (v.toNat % 2 ^ 12 &&& s.service.vaultFail) } })
    ∧ (∀ v : Word, up → s.service.docLoading = false → wbit v 0 = true → wfld v 10 4 < 12 →
        let co : CoreId := ⟨wfld v 10 4, wfld v 4 6⟩
        let src := v.toNat / 2 ^ 38 * 64
        let read (n : Nat) : List Byte := (List.range n).map (fun i => s.rd (2 ^ 51 + (src + i) % 0x300000))
        (∀ n, s.service.verified = [⟨3, src, n, sha384 (read n)⟩] →
         ∃ t, exec (.docupd v .docent) s = .next t ∧ t.service.docLoading = true ∧ t.service.docSrc = src ∧ t.service.docLen = n ∧ (t.core co).docBusy = true
          ∧ t.service.docTarget = co ∧ t.mem = s.mem)
        ∧ (∀ n, s.service.verified = [⟨4, src, n, sha384 (read n)⟩] →
           ∃ t, exec (.docupd v .tables) s = .next t ∧ t.service.docLoading = true ∧ (t.core co).newTables = some (tablesIn (read n), sha384 (read n), [1, 2, 3, 4])
             ∧ (t.core co).docBusy = (s.core co).docBusy ∧ t.mem = s.mem)
        ∧ ∀ u, ((∀ e ∈ s.service.verified, e.kind ≠ UpdImage.kind u ∨ e.src ≠ src ∨ e.digest ≠ sha384 (read e.len)) →
           ∃ t, exec (.docupd v u) s = .next t ∧ t.service.docLoading = false ∧ t.service.docRefused = true ∧ t.cores = s.cores))
    ∧ (let co := s.service.docTarget
       let image : List Byte := (List.range s.service.docLen).map (fun i => s.rd (2 ^ 51 + (s.service.docSrc + i) % 0x300000))
       s.service.docLoading = true → (s.core co).newTables = none → (s.ctx (co.ctx 4)).park = true → (s.core co).docHeld = [] → s.ecc = [] →
        ∃ t, exec .docupdComplete s = .next t ∧ (∀ y, y < 8192 → y < s.service.docLen → t.rd (docentAt co y) = image.getD y 0)
          ∧ t.ctx (co.ctx 4) = {} ∧ (t.core co).docBusy = false
          ∧ t.tablesOf co = s.tablesOf co ∧ t.service.docLoading = false ∧ t.service.meas.getD 3 0 = sha384 (beBytes 48 (s.service.meas.getD 3 0).toNat ++ beBytes 48 (sha384 image).toNat))
    ∧ (∀ x g, s.service.docLoading = true → (s.core s.service.docTarget).newTables = some (x, g, []) →
        ∃ t, exec .docupdComplete s = .next t ∧ t.tablesOf s.service.docTarget = x ∧ t.service.docLoading = false ∧ t.mem = s.mem
          ∧ t.service.meas.getD 4 0 = sha384 (beBytes 48 (s.service.meas.getD 4 0).toNat ++ beBytes 48 g.toNat))
    ∧ (∀ d (v : Word), up → (s.die d).repairBusy = false →
        ∃ t, exec (.vatrep d v) s = .next t ∧ t.die d = { s.die d with repairRow := wfld v 11 26, repairBusy := true, repairFail := false }
          ∧ { t with dies := s.dies } = s)
    ∧ (∀ d ok, (s.die d).repairBusy = true →
        ∃ t, exec (.vatrepComplete d ok) s = .next t ∧ t.die d = { s.die d with repairBusy := false, repairFail := !ok } ∧ { t with dies := s.dies } = s)
    ∧ (∀ (v : Nat), up → v < 2 ^ 64 → let w : Word := BitVec.ofNat 64 v
        (∀ d, d < 12 → 10 ≤ v → v ≤ 10000 →
          exec (.registerWrite (0x4300000000 + d * 0x100000 + 0x48) 8 v) s = .next (s.setReg (0x4300000000 + d * 0x100000 + 0x48) w))
        ∧ (exec (.registerWrite 0x4400000000 8 v) s = .next
            (let p : Power := { s.power with faben := w.getLsbD 13, pinen := w.getLsbD 12, fwreq := wfld w 9 3 }
             { s with power := { p with depth := if s.duty.testBit 4 then wfld w 14 3 else p.depth, level := min (if p.pinen then p.pinreq else 7) (min (if p.faben then p.fabreq else 7) p.fwreq) } }))
        ∧ (∀ i, i < 1024 → ∃ t y, exec (.registerWrite (0x4100000000 + 0x40 * i) 8 v) s = .next t ∧ t.queue i = y ∧ y.part = wfld w 26 2
            ∧ y.tickets = (if wfld w 16 10 = 0 then (s.queue i).tickets else wfld w 16 10) ∧ y.urgent = w.getLsbD 2
            ∧ y.quar = (w.getLsbD 3 && (s.queue i).quar) ∧ y.tail = (s.queue i).tail ∧ t.mem = s.mem
            ∧ (wfld w 0 2 = 0 → (s.queue i).offer = none → y.state = 0)
            ∧ (2 ≤ wfld w 0 2 → y.state = (s.queue i).state ∧ { t with queues := s.queues } = s))
        ∧ (∀ d a n, d < 12 → a < 0x1000 → n ≠ 4 → s.readRegister (0x460C000000 + d * 0x10000000 + a) n = 0)
        ∧ (∀ d a, d < 12 → a < 0x08000000 → s.ecc = [] →
            ∃ t, exec (.registerWrite (0x4600000000 + d * 0x10000000 + a) 1 v) s = .next t
              ∧ (∀ y, t.rd y = if y = 0x4600000000 + d * 0x10000000 + a then BitVec.ofNat 8 v else s.rd y) ∧ { t with mem := s.mem } = s))

/-! ### Encodings, steps and the whole machine -/

/-- 05 R99-R119, 14 R297-R304: decoding an encoded well-formed instruction gives it back, in every map its word stands in, for the 16-bit
forms, and for the packets; a word fits its length, and bit 0 tells the length. -/
def Obligations.EncodingRoundTrip : Prop :=
  ∀ i : Instr, i.wf = true →
    (∀ st ∈ i.streams, wordBits i = 32 ∧ decode32 st (encodeWord i) = .ok i ∧ encodeWord i < 2 ^ 32 ∧ encodeWord i % 2 = 1)
    ∧ (wordBits i = 16 → decode16 (encodeWord i) = .ok i ∧ encodeWord i < 2 ^ 16 ∧ encodeWord i % 2 = 0)
    ∧ (encodePacket i ≠ [] → decodePacket (encodePacket i) = .ok i)

/-- 05 R99-R119, 14 R298: words the manual writes out, and one of the XE written from its format, decode to the instructions they stand
for; a BLK is no SCU word, and a word with bit 0 clear no word of an engine. -/
def Obligations.DecodeWords : Prop :=
  decode16 0x2A44 = .ok (.add16 5 9) ∧ decode32 .scu 0xF0900011 = .ok (.li .always 2 0x2000)
    ∧ decode32 .scu 0x32000023 = .ok (.xfer ⟨3, 0⟩ 1) ∧ decode32 .scu 0xF00A6153 = .ok (.tsnap .always 5 6)
    ∧ decode32 .scu 0xF00A01D3 = .ok (.wake .always 5) ∧ decode32 .scu 0xF0000053 = .ok (.tren .always)
    ∧ decode32 .ve 0x28A30E83 = .ok (.vadd ⟨2, 1⟩ 5 6 7 1) ∧ decode32 .ve 0xF0A241D1 = .ok (.vst .always 5 1 1 1 1)
    ∧ decode32 .ve 0xF1048193 = .ok (.vcvt .always 8 9 0 3) ∧ decode32 .me 0xF108B289 = .ok (.mma .always 2 1 11 2 1)
    ∧ decode32 .ce 0xF0825003 = .ok (.cmov .always 1 0 4 1 0 2) ∧ decode32 .xe 0xF100050D = .ok (.xsig .always 1 5)
    ∧ decode32 .ve 0x03800101 = .ok (.blk 14 1) ∧ decode32 .scu 0x03800101 = .error .major ∧ decode32 .ve 0x28A30E82 = .error .size
    ∧ decodePacket [0x00030002, 0x003E9000, 7] = .ok (.qcall 0x003E9000 7)

/-- 01 R27, 03 R72, 05 R99-R100, R103, 13 R284, 14 R297: a step runs what the bytes decode to. At an SCU's turn the word at its program counter
runs, 16 or 32 bits by bit 0, and an illegal one as that; at an engine's turn the word at its counter, a BLK at a block's start; an uncorrectable
one traps 0x08; at admissions' turn the packet at the queue's point; at an event its own meaning, at a pair of the Curator's what it does, and at a
late write's turn that write is performed.
Round each stand the cycles until the unit may issue (17 R376-R377), what comes before it in its unit's order and among the traps of a cycle, the
bucket, which holds an instruction it cannot pay (17 R380), and the trap that waits for the context's issued access (13 R282). What is due before
the turn comes to pass instead. Log entries 3 and 4 say what the model adds to order these turns, and 7 what a turn may leave of the memory order. -/
def Obligations.StepRunsDecoded : Prop :=
  ∀ (s : State),
    (∀ (ag : AgentId) dt lw rest, (s.agenda = [] ∧ rest = [] ∧ s.turn = .agent ag ∧ dt = 1 ∧ lw = {}) ∨ s.agenda = ⟨dt, .agent ag, lw⟩ :: rest →
      AgentId.exists_ ag = true →
      let at_ := s.freeCycle ag (s.cycle + dt)
      let u : State := { ({ s with agenda := rest, leeway := lw } : State).elapse (at_ - s.cycle) with agent := ag }
      let issues (v : State) (waits : Bool) (t : State) : Prop :=
        let w := t.holdSlot ag false
        step s = .next (
          if v.acted t ag = false then t
          else if waits = true then v
          else if 0 < costOf ag v t ∧ v.affords ag.coreId ag.kind.num (costOf ag v t) = false then v.holdSlot ag true
          else if v.froze w ag.ctx = false then (w.took ag (v.passedOver ag)).boundaryTrap ag.ctx
          else if v.trapBefore ag = true ∨ v.trapPast ag = true then v
          else (v.noteTraps ag w).took ag (v.passedOver ag))
      let runs (v : State) (waits : Bool) (i : Instr) : Prop :=
        (v.fetchBad ag = none → ∀ t, exec i v = .next t → issues v waits t)
        ∧ ∀ e, v.fetchBad ag = some e → issues v waits (v.trapAgent ag 0x08 e)
      s.cut at_ = none →
      (ag.kind = .scu → (u.ctx ag.ctx).yielded = false →
        let v := u.scuBoundary ag
        let pc := (v.ctx ag.ctx).pc
        let h := v.fetchHalf ag.ctx pc
        let w := h + 65536 * v.fetchHalf ag.ctx (pc + 1)
        let does := runs v (v.ctxAhead ag)
        v.scuReady ag.ctx = true →
          (∀ i, pc < 16384 → h % 2 = 0 → decode16 h = .ok i → does i)
          ∧ (∀ i, pc < 16383 → h % 2 = 1 → decode32 .scu w = .ok i → does i)
          ∧ (∀ e, pc < 16384 → h % 2 = 0 → decode16 h = .error e → does (.illegalInstruction h))
          ∧ (∀ e, pc < 16383 → h % 2 = 1 → decode32 .scu w = .error e → does (.illegalInstruction w))
          ∧ (16384 ≤ pc → does (.illegalInstruction 0x10000)))
      ∧ (ag.kind ≠ .scu → u.engineReady ag = true →
          let x := u.stream ag
          let h := u.ispaceHalf ag.coreId x.epc
          let w := h + 65536 * u.ispaceHalf ag.coreId (x.epc + 1)
          let does := runs u (u.passFirst ag || u.slotAhead ag)
          x.active = true → x.atEnd = false → x.epc < 16383 → h % 2 = 1 →
            (∀ i, x.inBody = true → x.epc + 2 ≤ x.bodyStart + x.bodyLen → decode32 (AgentMap ag.kind) w = .ok i → does i)
            ∧ (∀ l r, x.inBody = false → decode32 (AgentMap ag.kind) w = .ok (.blk l r) → does (.blk l r))
            ∧ (∀ e, decode32 (AgentMap ag.kind) w = .error e → does (.illegalInstruction w))))
    ∧ (∀ q n h rest i, s.agenda = [] → s.turn = .admissions → s.cut (s.cycle + 1) = none →
        let u := ({ s with leeway := {} } : State).elapse 1
        let v := u.resumeSkip q
        u.mode = .running → u.turnOf = some (q, n) → (v.queue q).offer = none → (v.queue q).state = 1 → (v.queue q).wait = .no →
        v.currentPacket q = .words (h :: rest) →
        ((v.queue q).point.inRing = true ∨ (v.queue q).point.addr + 4 * packetWords h ≤ (v.queue q).point.stop) →
        decodePacket (h :: rest) = .ok i → step s = exec i v)
    ∧ (∀ dt i lw rest, s.agenda = ⟨dt, .event i, lw⟩ :: rest → Instr.coded i = false → Instr.turnOf i = none → s.cut (s.cycle + dt) = none →
        let u := ({ s with agenda := rest, leeway := lw } : State).elapse dt
        u.mode = .running → ∀ t, exec i u = .next t → step s = .next (u.inOrder t))
    ∧ (∀ dt x lw rest, s.agenda = ⟨dt, .curator x, lw⟩ :: rest → s.cut (s.cycle + dt) = none →
        step s = .next ((({ s with agenda := rest, leeway := lw } : State).elapse dt).takeCurator x))
    ∧ (∀ dt id part lw rest, s.agenda = ⟨dt, .perform id part, lw⟩ :: rest → s.cut (s.cycle + dt) = none →
        step s = .next ((({ s with agenda := rest, leeway := lw } : State).elapse dt).performOne id part))
    ∧ (∀ n (e : Timed), s.cut (s.turnTime s.nextTurn) = some (n, some e) →
        step s = e.run (({ s with agenda := s.postponed n, leeway := {} } : State).elapse (n - s.cycle)))

/-- The memory and the vault words stay in their one canonical form over every step, from every state that has it, and so do the addresses that
name the uncorrectable words, which are the words' own (03 R72). -/
def Obligations.StepKeepsForm : Prop :=
  ∀ (s t : State), step s = .next t →
    (s.wf = true → t.wf = true) ∧ ((∀ w ∈ s.ecc, w % 8 = 0) → ∀ w ∈ t.ecc, w % 8 = 0)

/-- What a cold reset leaves (03 R60, R407, 13 R280, R409, 14 R410, 16 R346, R363, 17 R370, 18 R389): the values the manual gives, and a
state in canonical form. The values the manual does not give are the model's (log entry 1) and stand in no clause. -/
def Obligations.ResetState : Prop :=
  let s := State.reset
  s.wf = true
    ∧ (∀ c, (s.core c).tdlg = 0x2FFFA00000000 ∧ (s.core c).dshare = 0 ∧ (s.core c).mbhold = .replicate 4 0
        ∧ (s.core c).wdt = .replicate 5 0x04000000 ∧ (s.core c).lwallow = .replicate 16 1024)
    ∧ (∀ d q, ((s.die d).icb q).state = 2)
    ∧ s.power.fwreq = 7 ∧ s.power.fabreq = 7 ∧ s.power.pinen = true ∧ s.power.faben = true ∧ s.power.map = #v[7, 6, 5, 4, 2, 2, 1, 0]
    ∧ s.power.tjtrip = 120 ∧ s.power.tjthr = 105
    ∧ s.cur.tqbase = 0 ∧ s.cur.tqwr = 0 ∧ s.cur.tqrd = 0 ∧ s.cur.mqbase = 0 ∧ s.cur.mqwr = 0 ∧ s.cur.mqrd = 0 ∧ s.cur.tqSet = false
    ∧ s.service.meas = .replicate 16 0 ∧ s.pvFirst = 0x1000 ∧ s.pvLast = 0xFFFF
end

