-- ==== Sys2Proof/Laws/Encoding.lean ====
section
/-! SUPPORT. How to read a field out of a sum of shifted fields, and the words that the encoder and the semaphore operations build. -/

namespace Sys2Proof.Laws

open Sys2Proof Sys2Proof.Machine

/-- The word of an instruction from its guard, its format and whether its guard field is free. -/
theorem encodeWord_of {i : Instr} {b : Bool} {g : Guard} {f : Nat × List (Nat × Nat)} (hg : i.guard = g) (hf : i.format = f)
    (hb : i.guarded = b) : encodeWord i = (if b then g.sel * 2 ^ 28 + g.neg * 2 ^ 27 else 0) + f.1 + placeFields f.2 := by
  rw [encodeWord, hg, hf, hb, Guard.bits]

/-- The number a semaphore word is made of. -/
theorem mkSem_toNat {e m : Nat} (p : Bool) (n : Int) (he : e < 2 ^ 28) (hm : m < 8) :
    (mkSem e m p n).toNat = e * 68719476736 + m * 8589934592 + (if p then 4294967296 else 0) + (n % 4294967296).toNat := by
  have hn : (n % 4294967296).toNat < 4294967296 := by omega
  simp only [mkSem, BitVec.toNat_ofNat, Nat.reducePow, Int.reducePow]
  have : (if p = true then 4294967296 else 0 : Nat) ≤ 4294967296 := by split <;> omega
  apply Nat.mod_eq_of_lt
  omega

/-- A semaphore word read field by field gives back the fields it was made of (03 R64). -/
theorem mkSem_fields {e m : Nat} {p : Bool} {n : Int} (he : e < 2 ^ 28) (hm : m < 8) (hl : -2 ^ 31 ≤ n) (hh : n < 2 ^ 31) :
    semExpect (mkSem e m p n) = e ∧ semMode (mkSem e m p n) = m ∧ semPhase (mkSem e m p n) = p ∧ semCount (mkSem e m p n) = n := by
  have hw := mkSem_toNat p n he hm
  have hn : (n % 4294967296).toNat < 4294967296 := by omega
  generalize (mkSem e m p n) = w at hw ⊢
  generalize hx : (n % 4294967296).toNat = x at hw hn
  generalize hb : (if p = true then 4294967296 else 0 : Nat) = b at hw
  refine ⟨?_, ?_, ?_, ?_⟩
  · show w.toNat / 68719476736 % 268435456 = e
    split at hb <;> omega
  · show w.toNat / 8589934592 % 8 = m
    split at hb <;> omega
  · simp only [semPhase, wbit, Nat.testBit_eq_decide_div_mod_eq]
    cases p <;> simp at hb ⊢ <;> omega
  · show signed 32 (w.toNat / 1 % 4294967296) = n
    have : w.toNat / 1 % 4294967296 = x := by split at hb <;> omega
    rw [this]
    have hs : signed 32 x = if 2147483648 ≤ x then (x : Int) - 4294967296 else x := by
      show (if 2 ^ (32 - 1) ≤ x % 2 ^ 32 then ((x % 2 ^ 32 : Nat) : Int) - ((2 ^ 32 : Nat) : Int) else ((x % 2 ^ 32 : Nat) : Int)) = _
      have hx' : x % 2 ^ 32 = x := Nat.mod_eq_of_lt (by omega)
      rw [hx']
      rfl
    rw [hs]
    split <;> omega

end Sys2Proof.Laws
end

