-- ==== Sys2Proof/Laws/State.lean ====
section
/-! SUPPORT. Reading a field after an update: tables and fixed vectors, then each operation of State field by field, so that no later proof
unfolds a record update. -/

namespace Sys2Proof

/-! ### Tables and vectors -/

@[simp] theorem table_get_put {κ α : Type} [DecidableEq κ] (dflt : α) (t : Table κ α) (x y : κ) (v : α) :
    Table.get dflt (Table.put t x v) y = if x = y then v else Table.get dflt t y := by
  induction t with
  | nil => simp [Table.get, Table.put]
  | cons e t ih =>
    obtain ⟨k, w⟩ := e
    by_cases h : k = x
    · subst h; by_cases hy : k = y <;> simp [Table.get, Table.put, hy]
    · by_cases hy : k = y
      · subst hy; simp [Table.get, Table.put, h, Ne.symm h]
      · simp [Table.get, Table.put, h, hy, ih]

@[simp] theorem getD_setNth {α : Type} {n : Nat} (v : Vector α n) (i j : Nat) (x d : α) :
    (setNth v i x).getD j d = if i = j ∧ j < n then x else v.getD j d := by
  obtain ⟨a, rfl⟩ := v
  simp only [Vector.getD, setNth, Vector.setIfInBounds, Array.getD_eq_getD_getElem?, Array.getElem?_setIfInBounds]
  by_cases h : i = j <;> by_cases h' : j < a.size <;> simp [h, h']

@[simp] theorem getD_tabulate {α : Type} (n : Nat) (f : Nat → α) (j : Nat) (d : α) :
    (tabulate n f).getD j d = if j < n then f j else d := by
  simp only [Vector.getD, tabulate, Array.getD_eq_getD_getElem?, List.getElem?_toArray, List.getElem?_map]
  by_cases h : j < n <;> simp [h]

/-! ### Sparse maps -/

theorem sparse_get_below {α : Type} (dflt : α) (x lo : Nat) (m : List (Nat × α)) (h : Sparse.rising lo m = true) (hx : x < lo) :
    Sparse.get dflt m x = dflt := by
  induction m generalizing lo with
  | nil => rfl
  | cons e t ih =>
    obtain ⟨k, v⟩ := e
    simp only [Sparse.rising, Bool.and_eq_true, decide_eq_true_eq] at h
    have hk : k ≠ x := by omega
    simpa [Sparse.get, hk] using ih (k + 1) h.2 (by omega)

theorem sparse_rising_mono {α : Type} (lo lo' : Nat) (m : List (Nat × α)) (h : Sparse.rising lo m = true) (hl : lo' ≤ lo) :
    Sparse.rising lo' m = true := by
  cases m with
  | nil => rfl
  | cons e t =>
    obtain ⟨k, v⟩ := e
    simp only [Sparse.rising, Bool.and_eq_true, decide_eq_true_eq] at h ⊢
    exact ⟨by omega, h.2⟩

end Sys2Proof

namespace Sys2Proof.Machine

/-! ### Fields no operation but its own changes -/

@[simp] theorem setCtx_frame (s : State) (c : CtxId) (x : Ctx) :
    (s.setCtx c x).mem = s.mem ∧ (s.setCtx c x).ecc = s.ecc ∧ (s.setCtx c x).vault = s.vault ∧ (s.setCtx c x).vaultBad = s.vaultBad ∧
    (s.setCtx c x).vaultHit = s.vaultHit ∧ (s.setCtx c x).regs = s.regs ∧ (s.setCtx c x).tasks = s.tasks ∧ (s.setCtx c x).streams = s.streams ∧
    (s.setCtx c x).ves = s.ves ∧ (s.setCtx c x).mes = s.mes ∧ (s.setCtx c x).cores = s.cores ∧ (s.setCtx c x).dies = s.dies ∧
    (s.setCtx c x).gallery = s.gallery ∧ (s.setCtx c x).queues = s.queues ∧ (s.setCtx c x).errmap = s.errmap ∧ (s.setCtx c x).turnOf = s.turnOf ∧
    (s.setCtx c x).launchSeq = s.launchSeq ∧ (s.setCtx c x).launches = s.launches ∧ (s.setCtx c x).pvFirst = s.pvFirst ∧
    (s.setCtx c x).pvLast = s.pvLast ∧ (s.setCtx c x).waiters = s.waiters ∧ (s.setCtx c x).reqs = s.reqs ∧ (s.setCtx c x).tagTimes = s.tagTimes ∧
    (s.setCtx c x).combining = s.combining ∧ (s.setCtx c x).links = s.links ∧ (s.setCtx c x).cur = s.cur ∧ (s.setCtx c x).duty = s.duty ∧
    (s.setCtx c x).power = s.power ∧ (s.setCtx c x).sensors = s.sensors ∧ (s.setCtx c x).service = s.service ∧ (s.setCtx c x).cycle = s.cycle ∧
    (s.setCtx c x).cycleBase = s.cycleBase ∧ (s.setCtx c x).pkg = s.pkg ∧ (s.setCtx c x).mode = s.mode ∧ (s.setCtx c x).agenda = s.agenda ∧
    (s.setCtx c x).turn = s.turn ∧ (s.setCtx c x).agent = s.agent ∧ (s.setCtx c x).outbox = s.outbox ∧ (s.setCtx c x).freeCtr = s.freeCtr ∧
    (s.setCtx c x).nextId = s.nextId ∧ (s.setCtx c x).order = s.order ∧ (s.setCtx c x).leeway = s.leeway := by
  and_intros <;> rfl

@[simp] theorem setTask_frame (s : State) (c : CtxId) (x : Option Task) :
    (s.setTask c x).mem = s.mem ∧ (s.setTask c x).ecc = s.ecc ∧ (s.setTask c x).vault = s.vault ∧ (s.setTask c x).vaultBad = s.vaultBad ∧
    (s.setTask c x).vaultHit = s.vaultHit ∧ (s.setTask c x).regs = s.regs ∧ (s.setTask c x).ctxs = s.ctxs ∧ (s.setTask c x).streams = s.streams ∧
    (s.setTask c x).ves = s.ves ∧ (s.setTask c x).mes = s.mes ∧ (s.setTask c x).cores = s.cores ∧ (s.setTask c x).dies = s.dies ∧
    (s.setTask c x).gallery = s.gallery ∧ (s.setTask c x).queues = s.queues ∧ (s.setTask c x).errmap = s.errmap ∧ (s.setTask c x).turnOf = s.turnOf ∧
    (s.setTask c x).launchSeq = s.launchSeq ∧ (s.setTask c x).launches = s.launches ∧ (s.setTask c x).pvFirst = s.pvFirst ∧
    (s.setTask c x).pvLast = s.pvLast ∧ (s.setTask c x).waiters = s.waiters ∧ (s.setTask c x).reqs = s.reqs ∧ (s.setTask c x).tagTimes = s.tagTimes ∧
    (s.setTask c x).combining = s.combining ∧ (s.setTask c x).links = s.links ∧ (s.setTask c x).cur = s.cur ∧ (s.setTask c x).duty = s.duty ∧
    (s.setTask c x).power = s.power ∧ (s.setTask c x).sensors = s.sensors ∧ (s.setTask c x).service = s.service ∧ (s.setTask c x).cycle = s.cycle ∧
    (s.setTask c x).cycleBase = s.cycleBase ∧ (s.setTask c x).pkg = s.pkg ∧ (s.setTask c x).mode = s.mode ∧ (s.setTask c x).agenda = s.agenda ∧
    (s.setTask c x).turn = s.turn ∧ (s.setTask c x).agent = s.agent ∧ (s.setTask c x).outbox = s.outbox ∧ (s.setTask c x).freeCtr = s.freeCtr ∧
    (s.setTask c x).nextId = s.nextId ∧ (s.setTask c x).order = s.order ∧ (s.setTask c x).leeway = s.leeway := by
  and_intros <;> rfl

@[simp] theorem setStream_frame (s : State) (a : AgentId) (x : Machine.Stream) :
    (s.setStream a x).mem = s.mem ∧ (s.setStream a x).ecc = s.ecc ∧ (s.setStream a x).vault = s.vault ∧ (s.setStream a x).vaultBad = s.vaultBad ∧
    (s.setStream a x).vaultHit = s.vaultHit ∧ (s.setStream a x).regs = s.regs ∧ (s.setStream a x).ctxs = s.ctxs ∧ (s.setStream a x).tasks = s.tasks ∧
    (s.setStream a x).ves = s.ves ∧ (s.setStream a x).mes = s.mes ∧ (s.setStream a x).cores = s.cores ∧ (s.setStream a x).dies = s.dies ∧
    (s.setStream a x).gallery = s.gallery ∧ (s.setStream a x).queues = s.queues ∧ (s.setStream a x).errmap = s.errmap ∧
    (s.setStream a x).turnOf = s.turnOf ∧ (s.setStream a x).launchSeq = s.launchSeq ∧ (s.setStream a x).launches = s.launches ∧
    (s.setStream a x).pvFirst = s.pvFirst ∧ (s.setStream a x).pvLast = s.pvLast ∧ (s.setStream a x).waiters = s.waiters ∧
    (s.setStream a x).reqs = s.reqs ∧ (s.setStream a x).tagTimes = s.tagTimes ∧ (s.setStream a x).combining = s.combining ∧
    (s.setStream a x).links = s.links ∧ (s.setStream a x).cur = s.cur ∧ (s.setStream a x).duty = s.duty ∧ (s.setStream a x).power = s.power ∧
    (s.setStream a x).sensors = s.sensors ∧ (s.setStream a x).service = s.service ∧ (s.setStream a x).cycle = s.cycle ∧
    (s.setStream a x).cycleBase = s.cycleBase ∧ (s.setStream a x).pkg = s.pkg ∧ (s.setStream a x).mode = s.mode ∧
    (s.setStream a x).agenda = s.agenda ∧ (s.setStream a x).turn = s.turn ∧ (s.setStream a x).agent = s.agent ∧ (s.setStream a x).outbox = s.outbox ∧
    (s.setStream a x).freeCtr = s.freeCtr ∧ (s.setStream a x).nextId = s.nextId ∧ (s.setStream a x).order = s.order ∧
    (s.setStream a x).leeway = s.leeway := by
  and_intros <;> rfl

@[simp] theorem setVe_frame (s : State) (c : CtxId) (x : Ve) :
    (s.setVe c x).mem = s.mem ∧ (s.setVe c x).ecc = s.ecc ∧ (s.setVe c x).vault = s.vault ∧ (s.setVe c x).vaultBad = s.vaultBad ∧
    (s.setVe c x).vaultHit = s.vaultHit ∧ (s.setVe c x).regs = s.regs ∧ (s.setVe c x).ctxs = s.ctxs ∧ (s.setVe c x).tasks = s.tasks ∧
    (s.setVe c x).streams = s.streams ∧ (s.setVe c x).mes = s.mes ∧ (s.setVe c x).cores = s.cores ∧ (s.setVe c x).dies = s.dies ∧
    (s.setVe c x).gallery = s.gallery ∧ (s.setVe c x).queues = s.queues ∧ (s.setVe c x).errmap = s.errmap ∧ (s.setVe c x).turnOf = s.turnOf ∧
    (s.setVe c x).launchSeq = s.launchSeq ∧ (s.setVe c x).launches = s.launches ∧ (s.setVe c x).pvFirst = s.pvFirst ∧
    (s.setVe c x).pvLast = s.pvLast ∧ (s.setVe c x).waiters = s.waiters ∧ (s.setVe c x).reqs = s.reqs ∧ (s.setVe c x).tagTimes = s.tagTimes ∧
    (s.setVe c x).combining = s.combining ∧ (s.setVe c x).links = s.links ∧ (s.setVe c x).cur = s.cur ∧ (s.setVe c x).duty = s.duty ∧
    (s.setVe c x).power = s.power ∧ (s.setVe c x).sensors = s.sensors ∧ (s.setVe c x).service = s.service ∧ (s.setVe c x).cycle = s.cycle ∧
    (s.setVe c x).cycleBase = s.cycleBase ∧ (s.setVe c x).pkg = s.pkg ∧ (s.setVe c x).mode = s.mode ∧ (s.setVe c x).agenda = s.agenda ∧
    (s.setVe c x).turn = s.turn ∧ (s.setVe c x).agent = s.agent ∧ (s.setVe c x).outbox = s.outbox ∧ (s.setVe c x).freeCtr = s.freeCtr ∧
    (s.setVe c x).nextId = s.nextId ∧ (s.setVe c x).order = s.order ∧ (s.setVe c x).leeway = s.leeway := by
  and_intros <;> rfl

@[simp] theorem setMe_frame (s : State) (c : CtxId) (x : MeSlot) :
    (s.setMe c x).mem = s.mem ∧ (s.setMe c x).ecc = s.ecc ∧ (s.setMe c x).vault = s.vault ∧ (s.setMe c x).vaultBad = s.vaultBad ∧
    (s.setMe c x).vaultHit = s.vaultHit ∧ (s.setMe c x).regs = s.regs ∧ (s.setMe c x).ctxs = s.ctxs ∧ (s.setMe c x).tasks = s.tasks ∧
    (s.setMe c x).streams = s.streams ∧ (s.setMe c x).ves = s.ves ∧ (s.setMe c x).cores = s.cores ∧ (s.setMe c x).dies = s.dies ∧
    (s.setMe c x).gallery = s.gallery ∧ (s.setMe c x).queues = s.queues ∧ (s.setMe c x).errmap = s.errmap ∧ (s.setMe c x).turnOf = s.turnOf ∧
    (s.setMe c x).launchSeq = s.launchSeq ∧ (s.setMe c x).launches = s.launches ∧ (s.setMe c x).pvFirst = s.pvFirst ∧
    (s.setMe c x).pvLast = s.pvLast ∧ (s.setMe c x).waiters = s.waiters ∧ (s.setMe c x).reqs = s.reqs ∧ (s.setMe c x).tagTimes = s.tagTimes ∧
    (s.setMe c x).combining = s.combining ∧ (s.setMe c x).links = s.links ∧ (s.setMe c x).cur = s.cur ∧ (s.setMe c x).duty = s.duty ∧
    (s.setMe c x).power = s.power ∧ (s.setMe c x).sensors = s.sensors ∧ (s.setMe c x).service = s.service ∧ (s.setMe c x).cycle = s.cycle ∧
    (s.setMe c x).cycleBase = s.cycleBase ∧ (s.setMe c x).pkg = s.pkg ∧ (s.setMe c x).mode = s.mode ∧ (s.setMe c x).agenda = s.agenda ∧
    (s.setMe c x).turn = s.turn ∧ (s.setMe c x).agent = s.agent ∧ (s.setMe c x).outbox = s.outbox ∧ (s.setMe c x).freeCtr = s.freeCtr ∧
    (s.setMe c x).nextId = s.nextId ∧ (s.setMe c x).order = s.order ∧ (s.setMe c x).leeway = s.leeway := by
  and_intros <;> rfl

@[simp] theorem setCore_frame (s : State) (c : CoreId) (x : Core) :
    (s.setCore c x).mem = s.mem ∧ (s.setCore c x).ecc = s.ecc ∧ (s.setCore c x).vault = s.vault ∧ (s.setCore c x).vaultBad = s.vaultBad ∧
    (s.setCore c x).vaultHit = s.vaultHit ∧ (s.setCore c x).regs = s.regs ∧ (s.setCore c x).ctxs = s.ctxs ∧ (s.setCore c x).tasks = s.tasks ∧
    (s.setCore c x).streams = s.streams ∧ (s.setCore c x).ves = s.ves ∧ (s.setCore c x).mes = s.mes ∧ (s.setCore c x).dies = s.dies ∧
    (s.setCore c x).gallery = s.gallery ∧ (s.setCore c x).queues = s.queues ∧ (s.setCore c x).errmap = s.errmap ∧ (s.setCore c x).turnOf = s.turnOf ∧
    (s.setCore c x).launchSeq = s.launchSeq ∧ (s.setCore c x).launches = s.launches ∧ (s.setCore c x).pvFirst = s.pvFirst ∧
    (s.setCore c x).pvLast = s.pvLast ∧ (s.setCore c x).waiters = s.waiters ∧ (s.setCore c x).reqs = s.reqs ∧ (s.setCore c x).tagTimes = s.tagTimes ∧
    (s.setCore c x).combining = s.combining ∧ (s.setCore c x).links = s.links ∧ (s.setCore c x).cur = s.cur ∧ (s.setCore c x).duty = s.duty ∧
    (s.setCore c x).power = s.power ∧ (s.setCore c x).sensors = s.sensors ∧ (s.setCore c x).service = s.service ∧ (s.setCore c x).cycle = s.cycle ∧
    (s.setCore c x).cycleBase = s.cycleBase ∧ (s.setCore c x).pkg = s.pkg ∧ (s.setCore c x).mode = s.mode ∧ (s.setCore c x).agenda = s.agenda ∧
    (s.setCore c x).turn = s.turn ∧ (s.setCore c x).agent = s.agent ∧ (s.setCore c x).outbox = s.outbox ∧ (s.setCore c x).freeCtr = s.freeCtr ∧
    (s.setCore c x).nextId = s.nextId ∧ (s.setCore c x).order = s.order ∧ (s.setCore c x).leeway = s.leeway := by
  and_intros <;> rfl

@[simp] theorem setDie_frame (s : State) (d : Nat) (x : Die) :
    (s.setDie d x).mem = s.mem ∧ (s.setDie d x).ecc = s.ecc ∧ (s.setDie d x).vault = s.vault ∧ (s.setDie d x).vaultBad = s.vaultBad ∧
    (s.setDie d x).vaultHit = s.vaultHit ∧ (s.setDie d x).regs = s.regs ∧ (s.setDie d x).ctxs = s.ctxs ∧ (s.setDie d x).tasks = s.tasks ∧
    (s.setDie d x).streams = s.streams ∧ (s.setDie d x).ves = s.ves ∧ (s.setDie d x).mes = s.mes ∧ (s.setDie d x).cores = s.cores ∧
    (s.setDie d x).gallery = s.gallery ∧ (s.setDie d x).queues = s.queues ∧ (s.setDie d x).errmap = s.errmap ∧ (s.setDie d x).turnOf = s.turnOf ∧
    (s.setDie d x).launchSeq = s.launchSeq ∧ (s.setDie d x).launches = s.launches ∧ (s.setDie d x).pvFirst = s.pvFirst ∧
    (s.setDie d x).pvLast = s.pvLast ∧ (s.setDie d x).waiters = s.waiters ∧ (s.setDie d x).reqs = s.reqs ∧ (s.setDie d x).tagTimes = s.tagTimes ∧
    (s.setDie d x).combining = s.combining ∧ (s.setDie d x).links = s.links ∧ (s.setDie d x).cur = s.cur ∧ (s.setDie d x).duty = s.duty ∧
    (s.setDie d x).power = s.power ∧ (s.setDie d x).sensors = s.sensors ∧ (s.setDie d x).service = s.service ∧ (s.setDie d x).cycle = s.cycle ∧
    (s.setDie d x).cycleBase = s.cycleBase ∧ (s.setDie d x).pkg = s.pkg ∧ (s.setDie d x).mode = s.mode ∧ (s.setDie d x).agenda = s.agenda ∧
    (s.setDie d x).turn = s.turn ∧ (s.setDie d x).agent = s.agent ∧ (s.setDie d x).outbox = s.outbox ∧ (s.setDie d x).freeCtr = s.freeCtr ∧
    (s.setDie d x).nextId = s.nextId ∧ (s.setDie d x).order = s.order ∧ (s.setDie d x).leeway = s.leeway := by
  and_intros <;> rfl

@[simp] theorem setQueue_frame (s : State) (q : Nat) (x : Queue) :
    (s.setQueue q x).mem = s.mem ∧ (s.setQueue q x).ecc = s.ecc ∧ (s.setQueue q x).vault = s.vault ∧ (s.setQueue q x).vaultBad = s.vaultBad ∧
    (s.setQueue q x).vaultHit = s.vaultHit ∧ (s.setQueue q x).regs = s.regs ∧ (s.setQueue q x).ctxs = s.ctxs ∧ (s.setQueue q x).tasks = s.tasks ∧
    (s.setQueue q x).streams = s.streams ∧ (s.setQueue q x).ves = s.ves ∧ (s.setQueue q x).mes = s.mes ∧ (s.setQueue q x).cores = s.cores ∧
    (s.setQueue q x).dies = s.dies ∧ (s.setQueue q x).gallery = s.gallery ∧ (s.setQueue q x).errmap = s.errmap ∧ (s.setQueue q x).turnOf = s.turnOf ∧
    (s.setQueue q x).launchSeq = s.launchSeq ∧ (s.setQueue q x).launches = s.launches ∧ (s.setQueue q x).pvFirst = s.pvFirst ∧
    (s.setQueue q x).pvLast = s.pvLast ∧ (s.setQueue q x).waiters = s.waiters ∧ (s.setQueue q x).reqs = s.reqs ∧
    (s.setQueue q x).tagTimes = s.tagTimes ∧ (s.setQueue q x).combining = s.combining ∧ (s.setQueue q x).links = s.links ∧
    (s.setQueue q x).cur = s.cur ∧ (s.setQueue q x).duty = s.duty ∧ (s.setQueue q x).power = s.power ∧ (s.setQueue q x).sensors = s.sensors ∧
    (s.setQueue q x).service = s.service ∧ (s.setQueue q x).cycle = s.cycle ∧ (s.setQueue q x).cycleBase = s.cycleBase ∧
    (s.setQueue q x).pkg = s.pkg ∧ (s.setQueue q x).mode = s.mode ∧ (s.setQueue q x).agenda = s.agenda ∧ (s.setQueue q x).turn = s.turn ∧
    (s.setQueue q x).agent = s.agent ∧ (s.setQueue q x).outbox = s.outbox ∧ (s.setQueue q x).freeCtr = s.freeCtr ∧
    (s.setQueue q x).nextId = s.nextId ∧ (s.setQueue q x).order = s.order ∧ (s.setQueue q x).leeway = s.leeway := by
  and_intros <;> rfl

@[simp] theorem send_frame (s : State) (o : Out) :
    (s.send o).mem = s.mem ∧ (s.send o).ecc = s.ecc ∧ (s.send o).vault = s.vault ∧ (s.send o).vaultBad = s.vaultBad ∧
    (s.send o).vaultHit = s.vaultHit ∧ (s.send o).regs = s.regs ∧ (s.send o).ctxs = s.ctxs ∧ (s.send o).tasks = s.tasks ∧
    (s.send o).streams = s.streams ∧ (s.send o).ves = s.ves ∧ (s.send o).mes = s.mes ∧ (s.send o).cores = s.cores ∧ (s.send o).dies = s.dies ∧
    (s.send o).gallery = s.gallery ∧ (s.send o).queues = s.queues ∧ (s.send o).errmap = s.errmap ∧ (s.send o).turnOf = s.turnOf ∧
    (s.send o).launchSeq = s.launchSeq ∧ (s.send o).launches = s.launches ∧ (s.send o).pvFirst = s.pvFirst ∧ (s.send o).pvLast = s.pvLast ∧
    (s.send o).waiters = s.waiters ∧ (s.send o).reqs = s.reqs ∧ (s.send o).tagTimes = s.tagTimes ∧ (s.send o).combining = s.combining ∧
    (s.send o).links = s.links ∧ (s.send o).cur = s.cur ∧ (s.send o).duty = s.duty ∧ (s.send o).power = s.power ∧ (s.send o).sensors = s.sensors ∧
    (s.send o).service = s.service ∧ (s.send o).cycle = s.cycle ∧ (s.send o).cycleBase = s.cycleBase ∧ (s.send o).pkg = s.pkg ∧
    (s.send o).mode = s.mode ∧ (s.send o).agenda = s.agenda ∧ (s.send o).turn = s.turn ∧ (s.send o).agent = s.agent ∧
    (s.send o).freeCtr = s.freeCtr ∧ (s.send o).nextId = s.nextId ∧ (s.send o).order = s.order ∧ (s.send o).leeway = s.leeway := by
  and_intros <;> rfl

@[simp] theorem setReg_frame (s : State) (p : Nat) (v : Word) :
    (s.setReg p v).mem = s.mem ∧ (s.setReg p v).ecc = s.ecc ∧ (s.setReg p v).vault = s.vault ∧ (s.setReg p v).vaultBad = s.vaultBad ∧
    (s.setReg p v).vaultHit = s.vaultHit ∧ (s.setReg p v).ctxs = s.ctxs ∧ (s.setReg p v).tasks = s.tasks ∧ (s.setReg p v).streams = s.streams ∧
    (s.setReg p v).ves = s.ves ∧ (s.setReg p v).mes = s.mes ∧ (s.setReg p v).cores = s.cores ∧ (s.setReg p v).dies = s.dies ∧
    (s.setReg p v).gallery = s.gallery ∧ (s.setReg p v).queues = s.queues ∧ (s.setReg p v).errmap = s.errmap ∧ (s.setReg p v).turnOf = s.turnOf ∧
    (s.setReg p v).launchSeq = s.launchSeq ∧ (s.setReg p v).launches = s.launches ∧ (s.setReg p v).pvFirst = s.pvFirst ∧
    (s.setReg p v).pvLast = s.pvLast ∧ (s.setReg p v).waiters = s.waiters ∧ (s.setReg p v).reqs = s.reqs ∧ (s.setReg p v).tagTimes = s.tagTimes ∧
    (s.setReg p v).combining = s.combining ∧ (s.setReg p v).links = s.links ∧ (s.setReg p v).cur = s.cur ∧ (s.setReg p v).duty = s.duty ∧
    (s.setReg p v).power = s.power ∧ (s.setReg p v).sensors = s.sensors ∧ (s.setReg p v).service = s.service ∧ (s.setReg p v).cycle = s.cycle ∧
    (s.setReg p v).cycleBase = s.cycleBase ∧ (s.setReg p v).pkg = s.pkg ∧ (s.setReg p v).mode = s.mode ∧ (s.setReg p v).agenda = s.agenda ∧
    (s.setReg p v).turn = s.turn ∧ (s.setReg p v).agent = s.agent ∧ (s.setReg p v).outbox = s.outbox ∧ (s.setReg p v).freeCtr = s.freeCtr ∧
    (s.setReg p v).nextId = s.nextId ∧ (s.setReg p v).order = s.order ∧ (s.setReg p v).leeway = s.leeway := by
  and_intros <;> rfl

@[simp] theorem setWord_frame (s : State) (k : Nat) (w : Word) :
    (s.setWord k w).mem = s.mem ∧ (s.setWord k w).ecc = s.ecc ∧ (s.setWord k w).vaultHit = s.vaultHit ∧ (s.setWord k w).regs = s.regs ∧
    (s.setWord k w).ctxs = s.ctxs ∧ (s.setWord k w).tasks = s.tasks ∧ (s.setWord k w).streams = s.streams ∧ (s.setWord k w).ves = s.ves ∧
    (s.setWord k w).mes = s.mes ∧ (s.setWord k w).cores = s.cores ∧ (s.setWord k w).dies = s.dies ∧ (s.setWord k w).gallery = s.gallery ∧
    (s.setWord k w).queues = s.queues ∧ (s.setWord k w).errmap = s.errmap ∧ (s.setWord k w).turnOf = s.turnOf ∧
    (s.setWord k w).launchSeq = s.launchSeq ∧ (s.setWord k w).launches = s.launches ∧ (s.setWord k w).pvFirst = s.pvFirst ∧
    (s.setWord k w).pvLast = s.pvLast ∧ (s.setWord k w).waiters = s.waiters ∧ (s.setWord k w).reqs = s.reqs ∧ (s.setWord k w).tagTimes = s.tagTimes ∧
    (s.setWord k w).combining = s.combining ∧ (s.setWord k w).links = s.links ∧ (s.setWord k w).cur = s.cur ∧ (s.setWord k w).duty = s.duty ∧
    (s.setWord k w).power = s.power ∧ (s.setWord k w).sensors = s.sensors ∧ (s.setWord k w).service = s.service ∧ (s.setWord k w).cycle = s.cycle ∧
    (s.setWord k w).cycleBase = s.cycleBase ∧ (s.setWord k w).pkg = s.pkg ∧ (s.setWord k w).mode = s.mode ∧ (s.setWord k w).agenda = s.agenda ∧
    (s.setWord k w).turn = s.turn ∧ (s.setWord k w).agent = s.agent ∧ (s.setWord k w).outbox = s.outbox ∧ (s.setWord k w).freeCtr = s.freeCtr ∧
    (s.setWord k w).nextId = s.nextId ∧ (s.setWord k w).order = s.order ∧ (s.setWord k w).leeway = s.leeway := by
  and_intros <;> rfl

@[simp] theorem put_frame (s : State) (cs : List (Nat × Byte)) :
    (s.put cs).vault = s.vault ∧ (s.put cs).vaultBad = s.vaultBad ∧ (s.put cs).vaultHit = s.vaultHit ∧ (s.put cs).regs = s.regs ∧
    (s.put cs).ctxs = s.ctxs ∧ (s.put cs).tasks = s.tasks ∧ (s.put cs).streams = s.streams ∧ (s.put cs).ves = s.ves ∧ (s.put cs).mes = s.mes ∧
    (s.put cs).cores = s.cores ∧ (s.put cs).dies = s.dies ∧ (s.put cs).gallery = s.gallery ∧ (s.put cs).queues = s.queues ∧
    (s.put cs).errmap = s.errmap ∧ (s.put cs).turnOf = s.turnOf ∧ (s.put cs).launchSeq = s.launchSeq ∧ (s.put cs).launches = s.launches ∧
    (s.put cs).pvFirst = s.pvFirst ∧ (s.put cs).pvLast = s.pvLast ∧ (s.put cs).waiters = s.waiters ∧ (s.put cs).reqs = s.reqs ∧
    (s.put cs).tagTimes = s.tagTimes ∧ (s.put cs).combining = s.combining ∧ (s.put cs).links = s.links ∧ (s.put cs).cur = s.cur ∧
    (s.put cs).duty = s.duty ∧ (s.put cs).power = s.power ∧ (s.put cs).sensors = s.sensors ∧ (s.put cs).service = s.service ∧
    (s.put cs).cycle = s.cycle ∧ (s.put cs).cycleBase = s.cycleBase ∧ (s.put cs).pkg = s.pkg ∧ (s.put cs).mode = s.mode ∧
    (s.put cs).agenda = s.agenda ∧ (s.put cs).turn = s.turn ∧ (s.put cs).agent = s.agent ∧ (s.put cs).outbox = s.outbox ∧
    (s.put cs).freeCtr = s.freeCtr ∧ (s.put cs).nextId = s.nextId ∧ (s.put cs).order = s.order ∧ (s.put cs).leeway = s.leeway := by
  and_intros <;> rfl

@[simp] theorem store_frame (s : State) (cs : List (Nat × Byte)) :
    (s.store cs).vault = s.vault ∧ (s.store cs).vaultBad = s.vaultBad ∧ (s.store cs).vaultHit = s.vaultHit ∧ (s.store cs).regs = s.regs ∧
    (s.store cs).ctxs = s.ctxs ∧ (s.store cs).tasks = s.tasks ∧ (s.store cs).streams = s.streams ∧ (s.store cs).ves = s.ves ∧
    (s.store cs).mes = s.mes ∧ (s.store cs).cores = s.cores ∧ (s.store cs).dies = s.dies ∧ (s.store cs).gallery = s.gallery ∧
    (s.store cs).queues = s.queues ∧ (s.store cs).errmap = s.errmap ∧ (s.store cs).turnOf = s.turnOf ∧ (s.store cs).launchSeq = s.launchSeq ∧
    (s.store cs).launches = s.launches ∧ (s.store cs).pvFirst = s.pvFirst ∧ (s.store cs).pvLast = s.pvLast ∧ (s.store cs).waiters = s.waiters ∧
    (s.store cs).reqs = s.reqs ∧ (s.store cs).tagTimes = s.tagTimes ∧ (s.store cs).combining = s.combining ∧ (s.store cs).links = s.links ∧
    (s.store cs).cur = s.cur ∧ (s.store cs).duty = s.duty ∧ (s.store cs).power = s.power ∧ (s.store cs).sensors = s.sensors ∧
    (s.store cs).service = s.service ∧ (s.store cs).cycle = s.cycle ∧ (s.store cs).cycleBase = s.cycleBase ∧ (s.store cs).pkg = s.pkg ∧
    (s.store cs).mode = s.mode ∧ (s.store cs).agenda = s.agenda ∧ (s.store cs).turn = s.turn ∧ (s.store cs).agent = s.agent ∧
    (s.store cs).outbox = s.outbox ∧ (s.store cs).freeCtr = s.freeCtr ∧ (s.store cs).nextId = s.nextId ∧ (s.store cs).leeway = s.leeway := by
  and_intros <;> rfl

@[simp] theorem storeRmw_frame (s : State) (cs : List (Nat × Byte)) :
    (s.storeRmw cs).vault = s.vault ∧ (s.storeRmw cs).vaultBad = s.vaultBad ∧ (s.storeRmw cs).vaultHit = s.vaultHit ∧ (s.storeRmw cs).regs = s.regs ∧
    (s.storeRmw cs).ctxs = s.ctxs ∧ (s.storeRmw cs).tasks = s.tasks ∧ (s.storeRmw cs).streams = s.streams ∧ (s.storeRmw cs).ves = s.ves ∧
    (s.storeRmw cs).mes = s.mes ∧ (s.storeRmw cs).cores = s.cores ∧ (s.storeRmw cs).dies = s.dies ∧ (s.storeRmw cs).gallery = s.gallery ∧
    (s.storeRmw cs).queues = s.queues ∧ (s.storeRmw cs).errmap = s.errmap ∧ (s.storeRmw cs).turnOf = s.turnOf ∧
    (s.storeRmw cs).launchSeq = s.launchSeq ∧ (s.storeRmw cs).launches = s.launches ∧ (s.storeRmw cs).pvFirst = s.pvFirst ∧
    (s.storeRmw cs).pvLast = s.pvLast ∧ (s.storeRmw cs).waiters = s.waiters ∧ (s.storeRmw cs).reqs = s.reqs ∧ (s.storeRmw cs).tagTimes = s.tagTimes ∧
    (s.storeRmw cs).combining = s.combining ∧ (s.storeRmw cs).links = s.links ∧ (s.storeRmw cs).cur = s.cur ∧ (s.storeRmw cs).duty = s.duty ∧
    (s.storeRmw cs).power = s.power ∧ (s.storeRmw cs).sensors = s.sensors ∧ (s.storeRmw cs).service = s.service ∧ (s.storeRmw cs).cycle = s.cycle ∧
    (s.storeRmw cs).cycleBase = s.cycleBase ∧ (s.storeRmw cs).pkg = s.pkg ∧ (s.storeRmw cs).mode = s.mode ∧ (s.storeRmw cs).agenda = s.agenda ∧
    (s.storeRmw cs).turn = s.turn ∧ (s.storeRmw cs).agent = s.agent ∧ (s.storeRmw cs).outbox = s.outbox ∧ (s.storeRmw cs).freeCtr = s.freeCtr ∧
    (s.storeRmw cs).nextId = s.nextId ∧ (s.storeRmw cs).leeway = s.leeway := by
  and_intros <;> rfl

@[simp] theorem clearRange_frame (s : State) (lo n : Nat) :
    (s.clearRange lo n).vault = s.vault ∧ (s.clearRange lo n).vaultBad = s.vaultBad ∧ (s.clearRange lo n).vaultHit = s.vaultHit ∧
    (s.clearRange lo n).regs = s.regs ∧ (s.clearRange lo n).ctxs = s.ctxs ∧ (s.clearRange lo n).tasks = s.tasks ∧
    (s.clearRange lo n).streams = s.streams ∧ (s.clearRange lo n).ves = s.ves ∧ (s.clearRange lo n).mes = s.mes ∧
    (s.clearRange lo n).cores = s.cores ∧ (s.clearRange lo n).dies = s.dies ∧ (s.clearRange lo n).gallery = s.gallery ∧
    (s.clearRange lo n).queues = s.queues ∧ (s.clearRange lo n).errmap = s.errmap ∧ (s.clearRange lo n).turnOf = s.turnOf ∧
    (s.clearRange lo n).launchSeq = s.launchSeq ∧ (s.clearRange lo n).launches = s.launches ∧ (s.clearRange lo n).pvFirst = s.pvFirst ∧
    (s.clearRange lo n).pvLast = s.pvLast ∧ (s.clearRange lo n).waiters = s.waiters ∧ (s.clearRange lo n).reqs = s.reqs ∧
    (s.clearRange lo n).tagTimes = s.tagTimes ∧ (s.clearRange lo n).combining = s.combining ∧ (s.clearRange lo n).links = s.links ∧
    (s.clearRange lo n).cur = s.cur ∧ (s.clearRange lo n).duty = s.duty ∧ (s.clearRange lo n).power = s.power ∧
    (s.clearRange lo n).sensors = s.sensors ∧ (s.clearRange lo n).service = s.service ∧ (s.clearRange lo n).cycle = s.cycle ∧
    (s.clearRange lo n).cycleBase = s.cycleBase ∧ (s.clearRange lo n).pkg = s.pkg ∧ (s.clearRange lo n).mode = s.mode ∧
    (s.clearRange lo n).agenda = s.agenda ∧ (s.clearRange lo n).turn = s.turn ∧ (s.clearRange lo n).agent = s.agent ∧
    (s.clearRange lo n).outbox = s.outbox ∧ (s.clearRange lo n).freeCtr = s.freeCtr ∧ (s.clearRange lo n).nextId = s.nextId ∧
    (s.clearRange lo n).leeway = s.leeway := by
  and_intros <;> rfl

@[simp] theorem tick_frame (s : State) :
    s.tick.mem = s.mem ∧ s.tick.ecc = s.ecc ∧ s.tick.vault = s.vault ∧ s.tick.vaultBad = s.vaultBad ∧ s.tick.vaultHit = s.vaultHit ∧
    s.tick.regs = s.regs ∧ s.tick.ctxs = s.ctxs ∧ s.tick.tasks = s.tasks ∧ s.tick.streams = s.streams ∧ s.tick.ves = s.ves ∧ s.tick.mes = s.mes ∧
    s.tick.cores = s.cores ∧ s.tick.dies = s.dies ∧ s.tick.gallery = s.gallery ∧ s.tick.queues = s.queues ∧ s.tick.errmap = s.errmap ∧
    s.tick.turnOf = s.turnOf ∧ s.tick.launchSeq = s.launchSeq ∧ s.tick.launches = s.launches ∧ s.tick.pvFirst = s.pvFirst ∧
    s.tick.pvLast = s.pvLast ∧ s.tick.waiters = s.waiters ∧ s.tick.reqs = s.reqs ∧ s.tick.tagTimes = s.tagTimes ∧ s.tick.combining = s.combining ∧
    s.tick.links = s.links ∧ s.tick.cur = s.cur ∧ s.tick.duty = s.duty ∧ s.tick.power = s.power ∧ s.tick.sensors = s.sensors ∧
    s.tick.service = s.service ∧ s.tick.cycle = s.cycle ∧ s.tick.cycleBase = s.cycleBase ∧ s.tick.pkg = s.pkg ∧ s.tick.mode = s.mode ∧
    s.tick.agenda = s.agenda ∧ s.tick.turn = s.turn ∧ s.tick.agent = s.agent ∧ s.tick.outbox = s.outbox ∧ s.tick.nextId = s.nextId ∧
    s.tick.order = s.order ∧ s.tick.leeway = s.leeway := by
  and_intros <;> rfl

@[simp] theorem named_frame (s : State) :
    s.named.mem = s.mem ∧ s.named.ecc = s.ecc ∧ s.named.vault = s.vault ∧ s.named.vaultBad = s.vaultBad ∧ s.named.vaultHit = s.vaultHit ∧
    s.named.regs = s.regs ∧ s.named.ctxs = s.ctxs ∧ s.named.tasks = s.tasks ∧ s.named.streams = s.streams ∧ s.named.ves = s.ves ∧
    s.named.mes = s.mes ∧ s.named.cores = s.cores ∧ s.named.dies = s.dies ∧ s.named.gallery = s.gallery ∧ s.named.queues = s.queues ∧
    s.named.errmap = s.errmap ∧ s.named.turnOf = s.turnOf ∧ s.named.launchSeq = s.launchSeq ∧ s.named.launches = s.launches ∧
    s.named.pvFirst = s.pvFirst ∧ s.named.pvLast = s.pvLast ∧ s.named.waiters = s.waiters ∧ s.named.reqs = s.reqs ∧ s.named.tagTimes = s.tagTimes ∧
    s.named.combining = s.combining ∧ s.named.links = s.links ∧ s.named.cur = s.cur ∧ s.named.duty = s.duty ∧ s.named.power = s.power ∧
    s.named.sensors = s.sensors ∧ s.named.service = s.service ∧ s.named.cycle = s.cycle ∧ s.named.cycleBase = s.cycleBase ∧ s.named.pkg = s.pkg ∧
    s.named.mode = s.mode ∧ s.named.agenda = s.agenda ∧ s.named.turn = s.turn ∧ s.named.agent = s.agent ∧ s.named.outbox = s.outbox ∧
    s.named.freeCtr = s.freeCtr ∧ s.named.order = s.order ∧ s.named.leeway = s.leeway := by
  and_intros <;> rfl

/-! ### Changing in place is replacing -/

@[simp] theorem modCtx_eq (s : State) (z : CtxId) (f : Ctx → Ctx) : s.modCtx z f = s.setCtx z (f (s.ctx z)) := rfl
@[simp] theorem modStream_eq (s : State) (z : AgentId) (f : Machine.Stream → Machine.Stream) : s.modStream z f = s.setStream z (f (s.stream z)) := rfl
@[simp] theorem modVe_eq (s : State) (z : CtxId) (f : Ve → Ve) : s.modVe z f = s.setVe z (f (s.ve z)) := rfl
@[simp] theorem modMe_eq (s : State) (z : CtxId) (f : MeSlot → MeSlot) : s.modMe z f = s.setMe z (f (s.me z)) := rfl
@[simp] theorem modCore_eq (s : State) (z : CoreId) (f : Core → Core) : s.modCore z f = s.setCore z (f (s.core z)) := rfl
@[simp] theorem modDie_eq (s : State) (z : Nat) (f : Die → Die) : s.modDie z f = s.setDie z (f (s.die z)) := rfl
@[simp] theorem modQueue_eq (s : State) (z : Nat) (f : Queue → Queue) : s.modQueue z f = s.setQueue z (f (s.queue z)) := rfl

/-! ### Reading back -/

@[simp] theorem ctx_setCtx (s : State) (c : CtxId) (x : Ctx) (z : CtxId) : (s.setCtx c x).ctx z = if c = z then x else s.ctx z := table_get_put _ _ _ _ _
@[simp] theorem task_setTask (s : State) (c : CtxId) (x : Option Task) (z : CtxId) : (s.setTask c x).task z = if c = z then x else s.task z := table_get_put _ _ _ _ _
@[simp] theorem stream_setStream (s : State) (a : AgentId) (x : Machine.Stream) (z : AgentId) : (s.setStream a x).stream z = if a = z then x else s.stream z := table_get_put _ _ _ _ _
@[simp] theorem ve_setVe (s : State) (c : CtxId) (x : Ve) (z : CtxId) : (s.setVe c x).ve z = if c = z then x else s.ve z := table_get_put _ _ _ _ _
@[simp] theorem me_setMe (s : State) (c : CtxId) (x : MeSlot) (z : CtxId) : (s.setMe c x).me z = if c = z then x else s.me z := table_get_put _ _ _ _ _
@[simp] theorem core_setCore (s : State) (c : CoreId) (x : Core) (z : CoreId) : (s.setCore c x).core z = if c = z then x else s.core z := table_get_put _ _ _ _ _
@[simp] theorem die_setDie (s : State) (d : Nat) (x : Die) (z : Nat) : (s.setDie d x).die z = if d = z then x else s.die z := table_get_put _ _ _ _ _
@[simp] theorem queue_setQueue (s : State) (q : Nat) (x : Queue) (z : Nat) : (s.setQueue q x).queue z = if q = z then x else s.queue z := table_get_put _ _ _ _ _

@[simp] theorem setCtx_reads (s : State) (c : CtxId) (x : Ctx) :
    (∀ z, (s.setCtx c x).task z = s.task z) ∧ (∀ z, (s.setCtx c x).stream z = s.stream z) ∧ (∀ z, (s.setCtx c x).ve z = s.ve z) ∧
    (∀ z, (s.setCtx c x).me z = s.me z) ∧ (∀ z, (s.setCtx c x).core z = s.core z) ∧ (∀ z, (s.setCtx c x).die z = s.die z) ∧
    (∀ z, (s.setCtx c x).queue z = s.queue z) ∧ (∀ z, (s.setCtx c x).rd z = s.rd z) ∧ (∀ z, (s.setCtx c x).word z = s.word z) ∧
    (∀ z, (s.setCtx c x).reg z = s.reg z) ∧ (s.setCtx c x).here = s.here := by
  and_intros <;> intros <;> rfl

@[simp] theorem setTask_reads (s : State) (c : CtxId) (x : Option Task) :
    (∀ z, (s.setTask c x).ctx z = s.ctx z) ∧ (∀ z, (s.setTask c x).stream z = s.stream z) ∧ (∀ z, (s.setTask c x).ve z = s.ve z) ∧
    (∀ z, (s.setTask c x).me z = s.me z) ∧ (∀ z, (s.setTask c x).core z = s.core z) ∧ (∀ z, (s.setTask c x).die z = s.die z) ∧
    (∀ z, (s.setTask c x).queue z = s.queue z) ∧ (∀ z, (s.setTask c x).rd z = s.rd z) ∧ (∀ z, (s.setTask c x).word z = s.word z) ∧
    (∀ z, (s.setTask c x).reg z = s.reg z) ∧ (s.setTask c x).here = s.here := by
  and_intros <;> intros <;> rfl

@[simp] theorem setStream_reads (s : State) (a : AgentId) (x : Machine.Stream) :
    (∀ z, (s.setStream a x).ctx z = s.ctx z) ∧ (∀ z, (s.setStream a x).task z = s.task z) ∧ (∀ z, (s.setStream a x).ve z = s.ve z) ∧
    (∀ z, (s.setStream a x).me z = s.me z) ∧ (∀ z, (s.setStream a x).core z = s.core z) ∧ (∀ z, (s.setStream a x).die z = s.die z) ∧
    (∀ z, (s.setStream a x).queue z = s.queue z) ∧ (∀ z, (s.setStream a x).rd z = s.rd z) ∧ (∀ z, (s.setStream a x).word z = s.word z) ∧
    (∀ z, (s.setStream a x).reg z = s.reg z) ∧ (s.setStream a x).here = s.here := by
  and_intros <;> intros <;> rfl

@[simp] theorem setVe_reads (s : State) (c : CtxId) (x : Ve) :
    (∀ z, (s.setVe c x).ctx z = s.ctx z) ∧ (∀ z, (s.setVe c x).task z = s.task z) ∧ (∀ z, (s.setVe c x).stream z = s.stream z) ∧
    (∀ z, (s.setVe c x).me z = s.me z) ∧ (∀ z, (s.setVe c x).core z = s.core z) ∧ (∀ z, (s.setVe c x).die z = s.die z) ∧
    (∀ z, (s.setVe c x).queue z = s.queue z) ∧ (∀ z, (s.setVe c x).rd z = s.rd z) ∧ (∀ z, (s.setVe c x).word z = s.word z) ∧
    (∀ z, (s.setVe c x).reg z = s.reg z) ∧ (s.setVe c x).here = s.here := by
  and_intros <;> intros <;> rfl

@[simp] theorem setMe_reads (s : State) (c : CtxId) (x : MeSlot) :
    (∀ z, (s.setMe c x).ctx z = s.ctx z) ∧ (∀ z, (s.setMe c x).task z = s.task z) ∧ (∀ z, (s.setMe c x).stream z = s.stream z) ∧
    (∀ z, (s.setMe c x).ve z = s.ve z) ∧ (∀ z, (s.setMe c x).core z = s.core z) ∧ (∀ z, (s.setMe c x).die z = s.die z) ∧
    (∀ z, (s.setMe c x).queue z = s.queue z) ∧ (∀ z, (s.setMe c x).rd z = s.rd z) ∧ (∀ z, (s.setMe c x).word z = s.word z) ∧
    (∀ z, (s.setMe c x).reg z = s.reg z) ∧ (s.setMe c x).here = s.here := by
  and_intros <;> intros <;> rfl

@[simp] theorem setCore_reads (s : State) (c : CoreId) (x : Core) :
    (∀ z, (s.setCore c x).ctx z = s.ctx z) ∧ (∀ z, (s.setCore c x).task z = s.task z) ∧ (∀ z, (s.setCore c x).stream z = s.stream z) ∧
    (∀ z, (s.setCore c x).ve z = s.ve z) ∧ (∀ z, (s.setCore c x).me z = s.me z) ∧ (∀ z, (s.setCore c x).die z = s.die z) ∧
    (∀ z, (s.setCore c x).queue z = s.queue z) ∧ (∀ z, (s.setCore c x).rd z = s.rd z) ∧ (∀ z, (s.setCore c x).word z = s.word z) ∧
    (∀ z, (s.setCore c x).reg z = s.reg z) ∧ (s.setCore c x).here = s.here := by
  and_intros <;> intros <;> rfl

@[simp] theorem setDie_reads (s : State) (d : Nat) (x : Die) :
    (∀ z, (s.setDie d x).ctx z = s.ctx z) ∧ (∀ z, (s.setDie d x).task z = s.task z) ∧ (∀ z, (s.setDie d x).stream z = s.stream z) ∧
    (∀ z, (s.setDie d x).ve z = s.ve z) ∧ (∀ z, (s.setDie d x).me z = s.me z) ∧ (∀ z, (s.setDie d x).core z = s.core z) ∧
    (∀ z, (s.setDie d x).queue z = s.queue z) ∧ (∀ z, (s.setDie d x).rd z = s.rd z) ∧ (∀ z, (s.setDie d x).word z = s.word z) ∧
    (∀ z, (s.setDie d x).reg z = s.reg z) ∧ (s.setDie d x).here = s.here := by
  and_intros <;> intros <;> rfl

@[simp] theorem setQueue_reads (s : State) (q : Nat) (x : Queue) :
    (∀ z, (s.setQueue q x).ctx z = s.ctx z) ∧ (∀ z, (s.setQueue q x).task z = s.task z) ∧ (∀ z, (s.setQueue q x).stream z = s.stream z) ∧
    (∀ z, (s.setQueue q x).ve z = s.ve z) ∧ (∀ z, (s.setQueue q x).me z = s.me z) ∧ (∀ z, (s.setQueue q x).core z = s.core z) ∧
    (∀ z, (s.setQueue q x).die z = s.die z) ∧ (∀ z, (s.setQueue q x).rd z = s.rd z) ∧ (∀ z, (s.setQueue q x).word z = s.word z) ∧
    (∀ z, (s.setQueue q x).reg z = s.reg z) ∧ (s.setQueue q x).here = s.here := by
  and_intros <;> intros <;> rfl

@[simp] theorem send_reads (s : State) (o : Out) :
    (∀ z, (s.send o).ctx z = s.ctx z) ∧ (∀ z, (s.send o).task z = s.task z) ∧ (∀ z, (s.send o).stream z = s.stream z) ∧
    (∀ z, (s.send o).ve z = s.ve z) ∧ (∀ z, (s.send o).me z = s.me z) ∧ (∀ z, (s.send o).core z = s.core z) ∧ (∀ z, (s.send o).die z = s.die z) ∧
    (∀ z, (s.send o).queue z = s.queue z) ∧ (∀ z, (s.send o).rd z = s.rd z) ∧ (∀ z, (s.send o).word z = s.word z) ∧
    (∀ z, (s.send o).reg z = s.reg z) ∧ (s.send o).here = s.here := by
  and_intros <;> intros <;> rfl

@[simp] theorem setReg_reads (s : State) (p : Nat) (v : Word) :
    (∀ z, (s.setReg p v).ctx z = s.ctx z) ∧ (∀ z, (s.setReg p v).task z = s.task z) ∧ (∀ z, (s.setReg p v).stream z = s.stream z) ∧
    (∀ z, (s.setReg p v).ve z = s.ve z) ∧ (∀ z, (s.setReg p v).me z = s.me z) ∧ (∀ z, (s.setReg p v).core z = s.core z) ∧
    (∀ z, (s.setReg p v).die z = s.die z) ∧ (∀ z, (s.setReg p v).queue z = s.queue z) ∧ (∀ z, (s.setReg p v).rd z = s.rd z) ∧
    (∀ z, (s.setReg p v).word z = s.word z) ∧ (s.setReg p v).here = s.here := by
  and_intros <;> intros <;> rfl

@[simp] theorem setWord_reads (s : State) (k : Nat) (w : Word) :
    (∀ z, (s.setWord k w).ctx z = s.ctx z) ∧ (∀ z, (s.setWord k w).task z = s.task z) ∧ (∀ z, (s.setWord k w).stream z = s.stream z) ∧
    (∀ z, (s.setWord k w).ve z = s.ve z) ∧ (∀ z, (s.setWord k w).me z = s.me z) ∧ (∀ z, (s.setWord k w).core z = s.core z) ∧
    (∀ z, (s.setWord k w).die z = s.die z) ∧ (∀ z, (s.setWord k w).queue z = s.queue z) ∧ (∀ z, (s.setWord k w).rd z = s.rd z) ∧
    (∀ z, (s.setWord k w).reg z = s.reg z) ∧ (s.setWord k w).here = s.here := by
  and_intros <;> intros <;> rfl

@[simp] theorem put_reads (s : State) (cs : List (Nat × Byte)) :
    (∀ z, (s.put cs).ctx z = s.ctx z) ∧ (∀ z, (s.put cs).task z = s.task z) ∧ (∀ z, (s.put cs).stream z = s.stream z) ∧
    (∀ z, (s.put cs).ve z = s.ve z) ∧ (∀ z, (s.put cs).me z = s.me z) ∧ (∀ z, (s.put cs).core z = s.core z) ∧ (∀ z, (s.put cs).die z = s.die z) ∧
    (∀ z, (s.put cs).queue z = s.queue z) ∧ (∀ z, (s.put cs).word z = s.word z) ∧ (∀ z, (s.put cs).reg z = s.reg z) ∧ (s.put cs).here = s.here := by
  and_intros <;> intros <;> rfl

@[simp] theorem store_reads (s : State) (cs : List (Nat × Byte)) :
    (∀ z, (s.store cs).ctx z = s.ctx z) ∧ (∀ z, (s.store cs).task z = s.task z) ∧ (∀ z, (s.store cs).stream z = s.stream z) ∧
    (∀ z, (s.store cs).ve z = s.ve z) ∧ (∀ z, (s.store cs).me z = s.me z) ∧ (∀ z, (s.store cs).core z = s.core z) ∧
    (∀ z, (s.store cs).die z = s.die z) ∧ (∀ z, (s.store cs).queue z = s.queue z) ∧ (∀ z, (s.store cs).word z = s.word z) ∧
    (∀ z, (s.store cs).reg z = s.reg z) ∧ (s.store cs).here = s.here := by
  and_intros <;> intros <;> rfl

@[simp] theorem storeRmw_reads (s : State) (cs : List (Nat × Byte)) :
    (∀ z, (s.storeRmw cs).ctx z = s.ctx z) ∧ (∀ z, (s.storeRmw cs).task z = s.task z) ∧ (∀ z, (s.storeRmw cs).stream z = s.stream z) ∧
    (∀ z, (s.storeRmw cs).ve z = s.ve z) ∧ (∀ z, (s.storeRmw cs).me z = s.me z) ∧ (∀ z, (s.storeRmw cs).core z = s.core z) ∧
    (∀ z, (s.storeRmw cs).die z = s.die z) ∧ (∀ z, (s.storeRmw cs).queue z = s.queue z) ∧ (∀ z, (s.storeRmw cs).word z = s.word z) ∧
    (∀ z, (s.storeRmw cs).reg z = s.reg z) ∧ (s.storeRmw cs).here = s.here := by
  and_intros <;> intros <;> rfl

@[simp] theorem clearRange_reads (s : State) (lo n : Nat) :
    (∀ z, (s.clearRange lo n).ctx z = s.ctx z) ∧ (∀ z, (s.clearRange lo n).task z = s.task z) ∧ (∀ z, (s.clearRange lo n).stream z = s.stream z) ∧
    (∀ z, (s.clearRange lo n).ve z = s.ve z) ∧ (∀ z, (s.clearRange lo n).me z = s.me z) ∧ (∀ z, (s.clearRange lo n).core z = s.core z) ∧
    (∀ z, (s.clearRange lo n).die z = s.die z) ∧ (∀ z, (s.clearRange lo n).queue z = s.queue z) ∧ (∀ z, (s.clearRange lo n).word z = s.word z) ∧
    (∀ z, (s.clearRange lo n).reg z = s.reg z) ∧ (s.clearRange lo n).here = s.here := by
  and_intros <;> intros <;> rfl

@[simp] theorem tick_reads (s : State) :
    (∀ z, s.tick.ctx z = s.ctx z) ∧ (∀ z, s.tick.task z = s.task z) ∧ (∀ z, s.tick.stream z = s.stream z) ∧ (∀ z, s.tick.ve z = s.ve z) ∧
    (∀ z, s.tick.me z = s.me z) ∧ (∀ z, s.tick.core z = s.core z) ∧ (∀ z, s.tick.die z = s.die z) ∧ (∀ z, s.tick.queue z = s.queue z) ∧
    (∀ z, s.tick.rd z = s.rd z) ∧ (∀ z, s.tick.word z = s.word z) ∧ (∀ z, s.tick.reg z = s.reg z) ∧ s.tick.here = s.here := by
  and_intros <;> intros <;> rfl

@[simp] theorem named_reads (s : State) :
    (∀ z, s.named.ctx z = s.ctx z) ∧ (∀ z, s.named.task z = s.task z) ∧ (∀ z, s.named.stream z = s.stream z) ∧ (∀ z, s.named.ve z = s.ve z) ∧
    (∀ z, s.named.me z = s.me z) ∧ (∀ z, s.named.core z = s.core z) ∧ (∀ z, s.named.die z = s.die z) ∧ (∀ z, s.named.queue z = s.queue z) ∧
    (∀ z, s.named.rd z = s.rd z) ∧ (∀ z, s.named.word z = s.word z) ∧ (∀ z, s.named.reg z = s.reg z) ∧ s.named.here = s.here := by
  and_intros <;> intros <;> rfl

@[simp] theorem reg_setReg (s : State) (p : Nat) (v : Word) (z : Nat) : (s.setReg p v).reg z = if p = z then v else s.reg z :=
  table_get_put _ _ _ _ _

end Sys2Proof.Machine
end

