-- ==== Sys2Proof/Laws/Memory.lean ====
section
/-! SUPPORT. Storage: read after write, and that every operation over memory and the vaults keeps the canonical form. -/

namespace Sys2Proof

theorem sparse_rising_iff {α : Type} (lo : Nat) (m : List (Nat × α)) :
    Sparse.rising lo m = true ↔ (∀ e ∈ m, lo ≤ e.1) ∧ m.Pairwise (fun a b => a.1 < b.1) := by
  induction m generalizing lo with
  | nil => simp [Sparse.rising]
  | cons e t ih =>
    obtain ⟨k, v⟩ := e
    simp only [Sparse.rising, Bool.and_eq_true, decide_eq_true_eq, ih, List.forall_mem_cons, List.pairwise_cons]
    constructor
    · rintro ⟨h, h1, h2⟩
      exact ⟨⟨h, fun e he => by have := h1 e he; omega⟩, fun e he => by have := h1 e he; omega, h2⟩
    · rintro ⟨⟨h, _⟩, h1, h2⟩
      exact ⟨h, fun e he => by have := h1 e he; omega, h2⟩

theorem sparse_wf_iff {α : Type} [DecidableEq α] (dflt : α) (m : List (Nat × α)) :
    Sparse.wf dflt m = true ↔ m.Pairwise (fun a b => a.1 < b.1) ∧ ∀ e ∈ m, e.2 ≠ dflt := by
  simp [Sparse.wf, sparse_rising_iff]

/-- Taking entries away keeps the canonical form. -/
theorem sparse_wf_filter {α : Type} [DecidableEq α] (dflt : α) (m : List (Nat × α)) (p : Nat × α → Bool) (h : Sparse.wf dflt m = true) :
    Sparse.wf dflt (m.filter p) = true := by
  rw [sparse_wf_iff] at h ⊢
  exact ⟨h.1.filter _, fun e he => h.2 e (List.mem_filter.mp he).1⟩

/-- Setting a key keeps the canonical form. -/
theorem sparse_wf_set {α : Type} [DecidableEq α] (dflt : α) (m : List (Nat × α)) (x : Nat) (v : α) (h : Sparse.wf dflt m = true) :
    Sparse.wf dflt (Sparse.set dflt m x v) = true := by
  rw [sparse_wf_iff] at h ⊢
  obtain ⟨hp, hd⟩ := h
  unfold Sparse.set
  constructor
  · rw [List.append_assoc, List.pairwise_append, List.pairwise_append]
    refine ⟨hp.filter _, ⟨by split <;> simp, hp.filter _, ?_⟩, ?_⟩
    · intro a ha b hb
      simp only [List.mem_filter, decide_eq_true_eq] at hb
      split at ha <;> simp_all
    · intro a ha b hb
      simp only [List.mem_filter, decide_eq_true_eq, List.mem_append] at ha hb
      rcases hb with hb | hb
      · split at hb <;> simp_all
      · omega
  · intro e he
    simp only [List.mem_append, List.mem_filter] at he
    rcases he with (⟨he, _⟩ | he) | ⟨he, _⟩
    · exact hd e he
    · split at he <;> simp_all
    · exact hd e he

theorem sparse_get_append {α : Type} (dflt : α) (m n : List (Nat × α)) (x : Nat) (h : ∀ e ∈ m, e.1 ≠ x) :
    Sparse.get dflt (m ++ n) x = Sparse.get dflt n x := by
  induction m with
  | nil => rfl
  | cons e t ih =>
    obtain ⟨k, v⟩ := e
    simp only [List.forall_mem_cons] at h
    simp [Sparse.get, h.1, ih h.2]

theorem sparse_get_append_left {α : Type} (dflt : α) (m n : List (Nat × α)) (x : Nat) (h : ∀ e ∈ n, e.1 ≠ x) :
    Sparse.get dflt (m ++ n) x = Sparse.get dflt m x := by
  induction m with
  | nil => simpa [Sparse.get] using sparse_get_append dflt n [] x h
  | cons e t ih =>
    obtain ⟨k, v⟩ := e
    simp [Sparse.get, ih]

theorem sparse_get_filter {α : Type} (dflt : α) (m : List (Nat × α)) (p : Nat → Bool) (x : Nat) (h : p x = true) :
    Sparse.get dflt (m.filter (fun e => p e.1)) x = Sparse.get dflt m x := by
  induction m with
  | nil => rfl
  | cons e t ih =>
    obtain ⟨k, v⟩ := e
    by_cases hk : k = x
    · subst hk; simp [Sparse.get, h]
    · cases hp : p k <;> simp [Sparse.get, hk, hp, ih]

/-- Reading after setting. -/
theorem sparse_get_set {α : Type} [DecidableEq α] (dflt : α) (m : List (Nat × α)) (x y : Nat) (v : α) :
    Sparse.get dflt (Sparse.set dflt m x v) y = if x = y then v else Sparse.get dflt m y := by
  unfold Sparse.set
  by_cases hxy : x = y
  · subst hxy
    rw [sparse_get_append_left _ _ _ _ (by intro e he; simp at he; omega), sparse_get_append _ _ _ _ (by intro e he; simp at he; omega)]
    by_cases hv : v = dflt <;> simp [hv, Sparse.get]
  · have hmid : ∀ e ∈ (if v = dflt then ([] : List (Nat × α)) else [(x, v)]), e.1 ≠ y := by
      intro e he; split at he <;> simp_all
    by_cases hlt : y < x
    · rw [sparse_get_append_left _ _ _ _ (by intro e he; simp at he; omega), sparse_get_append_left _ _ _ _ hmid,
        sparse_get_filter dflt m (fun k => decide (k < x)) y (by simpa using hlt), if_neg hxy]
    · rw [sparse_get_append _ _ _ _ (by
            intro e he; rcases List.mem_append.mp he with he | he
            · simp at he; omega
            · exact hmid e he),
        sparse_get_filter dflt m (fun k => decide (x < k)) y (by simp; omega), if_neg hxy]

end Sys2Proof

namespace Sys2Proof.Machine

/-! ### Every operation over memory keeps the canonical form -/

theorem mem_wf_wr (s : State) (a : Nat) (b : Byte) (h : Memory.wf s.mem = true) : Memory.wf (s.wr a b).mem = true :=
  sparse_wf_set _ _ _ _ h

theorem mem_wf_sets (cs : List (Nat × Byte)) (m : List Host.Cell) (h : Memory.wf m = true) :
    Memory.wf (cs.foldl (fun m c => Sparse.set (0 : Byte) m c.1 c.2) m) = true := by
  induction cs generalizing m with
  | nil => exact h
  | cons c t ih => exact ih _ (sparse_wf_set _ _ _ _ h)

theorem mem_wf_store (s : State) (cs : List (Nat × Byte)) (h : Memory.wf s.mem = true) : Memory.wf (s.store cs).mem = true :=
  mem_wf_sets _ _ h

theorem mem_wf_storeAt (s : State) (a : Nat) (bs : List Byte) (h : Memory.wf s.mem = true) : Memory.wf (s.storeAt a bs).mem = true :=
  mem_wf_store _ _ h

theorem mem_wf_clearRange (s : State) (lo n : Nat) (h : Memory.wf s.mem = true) : Memory.wf (s.clearRange lo n).mem = true :=
  sparse_wf_filter _ _ _ h

theorem vault_wf_setWord (s : State) (k : Nat) (w : Word) (h : Sparse.wf (0 : Word) s.vault = true) :
    Sparse.wf (0 : Word) (s.setWord k w).vault = true := sparse_wf_set _ _ _ _ h

theorem reset_wf : State.reset.wf = true := by decide

/-- An update that leaves memory and the vaults keeps the good form. -/
theorem wf_of_same {s t : State} (h : s.wf = true) (hm : t.mem = s.mem) (hv : t.vault = s.vault) : t.wf = true := by
  simpa [State.wf, hm, hv] using h

theorem wf_store (s : State) (cs : List (Nat × Byte)) (h : s.wf = true) : (s.store cs).wf = true := by
  simp only [State.wf, Bool.and_eq_true] at h ⊢
  exact ⟨mem_wf_store s cs h.1, by simpa using h.2⟩

theorem wf_clearRange (s : State) (lo n : Nat) (h : s.wf = true) : (s.clearRange lo n).wf = true := by
  simp only [State.wf, Bool.and_eq_true] at h ⊢
  exact ⟨mem_wf_clearRange s lo n h.1, by simpa using h.2⟩

theorem wf_setWord (s : State) (k : Nat) (w : Word) (h : s.wf = true) : (s.setWord k w).wf = true := by
  simp only [State.wf, Bool.and_eq_true] at h ⊢
  exact ⟨by simpa using h.1, vault_wf_setWord s k w h.2⟩

/-! ### Reading after writing -/

@[simp] theorem rd_wr (s : State) (a z : Nat) (b : Byte) : (s.wr a b).rd z = if a = z then b else s.rd z := sparse_get_set _ _ _ _ _

@[simp] theorem word_setWord (s : State) (k z : Nat) (w : Word) : (s.setWord k w).word z = if k = z then w else s.word z :=
  sparse_get_set _ _ _ _ _

theorem get_sets_other (cs : List (Nat × Byte)) (m : List Host.Cell) (z : Nat) (h : ∀ c ∈ cs, c.1 ≠ z) :
    Sparse.get (0 : Byte) (cs.foldl (fun m c => Sparse.set (0 : Byte) m c.1 c.2) m) z = Sparse.get 0 m z := by
  induction cs generalizing m with
  | nil => rfl
  | cons c t ih =>
    simp only [List.forall_mem_cons] at h
    rw [List.foldl_cons, ih _ h.2, sparse_get_set, if_neg h.1]

/-- A store leaves every byte whose address it does not list. -/
theorem rd_store_other (s : State) (cs : List (Nat × Byte)) (z : Nat) (h : ∀ c ∈ cs, c.1 ≠ z) : (s.store cs).rd z = s.rd z :=
  get_sets_other _ _ _ (fun c hc => h c (List.mem_filter.mp hc).1)

theorem get_sets_hit (cs : List (Nat × Byte)) (m : List Host.Cell) (c : Nat × Byte) (hc : c ∈ cs) (hn : (cs.map Prod.fst).Nodup) :
    Sparse.get (0 : Byte) (cs.foldl (fun m c => Sparse.set (0 : Byte) m c.1 c.2) m) c.1 = c.2 := by
  induction cs generalizing m with
  | nil => simp at hc
  | cons e t ih =>
    simp only [List.map_cons, List.nodup_cons] at hn
    rw [List.foldl_cons]
    rcases List.mem_cons.mp hc with rfl | hc
    · rw [get_sets_other _ _ _ (fun x hx he => hn.1 (List.mem_map.mpr ⟨x, hx, he⟩)), sparse_get_set, if_pos rfl]
    · exact ih _ hc hn.2

/-- A store writes each byte it lists, when no address is listed twice and no bad ECC word is touched. -/
theorem rd_store_hit (s : State) (cs : List (Nat × Byte)) (c : Nat × Byte) (hc : c ∈ cs) (hn : (cs.map Prod.fst).Nodup)
    (hs : s.Sound (cs.map Prod.fst)) : (s.store cs).rd c.1 = c.2 := by
  refine get_sets_hit _ _ _ (List.mem_filter.mpr ⟨hc, ?_⟩) (hn.sublist (List.filter_sublist.map _))
  have := hs c.1 (List.mem_map.mpr ⟨c, hc, rfl⟩)
  simp only [Bool.not_eq_eq_eq_not, Bool.not_true, ← Bool.not_eq_true, List.contains_iff_mem, List.mem_filter]
  exact fun h => this h.1

end Sys2Proof.Machine
end

