-- ==== Sys2Proof/Laws/Form.lean ====
section
/-! SUPPORT. The operations that rewrite whole stretches of storage keep the canonical form: exchanges, resets and the loss of power. -/

namespace Sys2Proof.Machine

/-- What keeps the good form step by step keeps it over a list. -/
theorem wf_foldl {β : Type} (f : State → β → State) (hf : ∀ s b, s.wf = true → (f s b).wf = true) (l : List β) (s : State) (h : s.wf = true) :
    (l.foldl f s).wf = true := by
  induction l generalizing s with
  | nil => exact h
  | cons b t ih => exact ih _ (hf s b h)

/-- Storage of which only parts are left keeps the good form. -/
theorem wf_of_filters {s t : State} (p : Host.Cell → Bool) (q : Nat × Word → Bool) (h : s.wf = true) (hm : t.mem = s.mem.filter p)
    (hv : t.vault = s.vault.filter q) : t.wf = true := by
  simp only [State.wf, Bool.and_eq_true] at h ⊢
  exact ⟨by rw [hm]; exact sparse_wf_filter _ _ _ h.1, by rw [hv]; exact sparse_wf_filter _ _ _ h.2⟩

/-- An exchange of two ranges keeps the canonical form (17 R385). -/
theorem wf_swapRange (s : State) (a b n : Nat) (h : s.wf = true) : (s.swapRange a b n).wf = true := by
  have move (f : Nat → Nat) (l m : List Host.Cell) (hm : Memory.wf m = true) :
      Memory.wf (l.foldl (fun m e => Sparse.set (0 : Byte) m (f e.1) e.2) m) = true := by
    induction l generalizing m with
    | nil => exact hm
    | cons c t ih => exact ih _ (sparse_wf_set _ _ _ _ hm)
  simp only [State.wf, Bool.and_eq_true] at h ⊢
  refine ⟨?_, h.2⟩
  simp only [State.swapRange]
  exact move (fun x => if a ≤ x ∧ x < a + n then x - a + b else if b ≤ x ∧ x < b + n then x - b + a else x) _ _ (sparse_wf_filter _ _ _ h.1)

/-- Forgotten launches leave the vaults in canonical form (16 R362). -/
theorem wf_forgetLaunches (s : State) (f : Launch → Bool) (h : s.wf = true) : (s.forgetLaunches f).wf = true := by
  have hc : ((s.launches.filter f).foldl (fun s l => s.clearRange (streamAt l.seq 0 0 0) (64 * 4096 * 65536)) s).wf = true :=
    wf_foldl _ (fun s l hs => wf_clearRange s _ _ hs) _ s h
  simp only [State.wf, Bool.and_eq_true] at hc ⊢
  exact ⟨hc.1, sparse_wf_filter _ _ _ hc.2⟩

/-- What power failure leaves is in canonical form (17 R386). -/
theorem wf_unpowered (s : State) (h : s.wf = true) : s.unpowered.wf = true := by
  simp only [State.wf, Bool.and_eq_true] at h ⊢
  exact ⟨sparse_wf_filter _ _ _ h.1, rfl⟩

end Sys2Proof.Machine
end

