-- ==== Sys2Proof/Laws/Order.lean ====
section
/-! SUPPORT. The memory order when nothing of it is open: each operation of Machine/Order.lean is then the plain read or write at the home of the bytes. -/

namespace Sys2Proof.Machine

theorem order_quiet {s : State} (h : s.order = {}) : s.order.quiet = true := by rw [h]; rfl

/-- With no open order a store is a put. -/
theorem store_eq_put {s : State} (h : s.order = {}) (cs : List (Nat × Byte)) : s.store cs = s.put cs := by
  obtain ⟨⟩ := s; simp only at h; subst h; rfl

theorem storeRmw_eq_put {s : State} (h : s.order = {}) (cs : List (Nat × Byte)) : s.storeRmw cs = s.put cs := by
  obtain ⟨⟩ := s; simp only at h; subst h; rfl

@[simp] theorem put_order (s : State) (cs : List (Nat × Byte)) : (s.put cs).order = s.order := rfl

/-! ### Reads -/

theorem see_strict {s : State} (h : s.order = {}) (a : AgentId) (hs : List Nat) : s.see a hs = (hs.map s.rd, s) := by
  simp [State.see, order_quiet h]

theorem glance_strict {s : State} (h : s.order = {}) (a : AgentId) (n : Nat) (hs : List Nat) : s.glance a n hs = hs.map s.rd := by
  simp [State.glance, order_quiet h]

theorem seeStrong_strict {s : State} (h : s.order = {}) (a : AgentId) (hs : List Nat) : s.seeStrong a hs = (hs.map s.rd, s) := by
  simp [State.seeStrong, order_quiet h]

theorem seeAcquire_strict {s : State} (h : s.order = {}) (a : AgentId) (hs : List Nat) (narrow : Bool) :
    s.seeAcquire a hs narrow = (hs.map s.rd, s) := by
  simp [State.seeAcquire, order_quiet h]

theorem seeRmw_strict {s : State} (h : s.order = {}) (a : AgentId) (hs : List Nat) : s.seeRmw a hs = (hs.map s.rd, s) := by
  simp [State.seeRmw, order_quiet h]

/-! ### What performs, publishes and acquires has nothing to do -/

theorem perform_strict {s : State} (h : s.order = {}) (p : Write → Bool) : s.perform p = s := by simp [State.perform, h]

theorem performOwn_strict {s : State} (h : s.order = {}) (a : AgentId) : s.performOwn a = s := perform_strict h _

theorem publish_strict {s : State} (h : s.order = {}) (a : AgentId) (own : Write → Bool) (x : Holder) : s.publish a own x = s := by
  simp [State.publish, order_quiet h]

theorem acquire_strict {s : State} (h : s.order = {}) (a : AgentId) (p : Holder → Bool) : s.acquire a p = s := by
  simp [State.acquire, order_quiet h]

theorem coverAll_strict {s : State} (h : s.order = {}) (a : AgentId) : s.coverAll a = s := by simp [State.coverAll, order_quiet h]

theorem signal_strict {s : State} (h : s.order = {}) (a : AgentId) (key : Nat) (b : Bool) (own : Write → Bool) : s.signal a key b own = s := by
  simp [State.signal, performOwn_strict h, publish_strict h]

theorem flip_strict {s : State} (h : s.order = {}) (key die : Nat) : s.flip key die = s := by simp [State.flip, order_quiet h]

theorem waited_strict {s : State} (h : s.order = {}) (a : AgentId) (key : Nat) : s.waited a key = s := acquire_strict h _ _

theorem publishPoint_strict {s : State} (h : s.order = {}) (l n : Nat) (p : List Nat) (scope : Nat) : s.publishPoint l n p scope = s := by
  simp [State.publishPoint, order_quiet h]

theorem beginOrder_strict {s : State} (h : s.order = {}) (d : Nat) : s.beginOrder d = s := by simp [State.beginOrder, order_quiet h]

theorem closeOrder_strict {s : State} (h : s.order = {}) (c : CtxId) : s.closeOrder c = s := by simp [State.closeOrder, order_quiet h]

/-! ### Writes -/

theorem weakly_strict {s : State} (h : s.strict) (late : Bool) (ws : List Write) (cs : List (Nat × Byte)) : s.weakly late ws cs = s.store cs := by
  simp [State.weakly, State.lingers, h.2]

theorem writeHeld_strict {s : State} (h : s.strict) (a : AgentId) (hs : List Holder) (l : List Spot) :
    s.writeHeld a hs l = s.store (l.map Prod.snd) := by
  simp [State.writeHeld, h.2, perform_strict h.1, weakly_strict h]

theorem write_strict {s : State} (h : s.strict) (a : AgentId) (l : List Spot) : s.write a l = s.store (l.map Prod.snd) := writeHeld_strict h _ _ _

theorem writeCopy_strict {s : State} (h : s.strict) (c : CtxId) (reg : Nat) (l : List Spot) : s.writeCopy c reg l = s.store (l.map Prod.snd) :=
  weakly_strict h _ _ _

theorem writeStrong_strict {s : State} (h : s.strict) (a : AgentId) (rel narrow isS : Bool) (addr : Nat) (cs : List (Nat × Byte)) :
    s.writeStrong a rel narrow isS addr cs = s.store cs := by
  simp [State.writeStrong, order_quiet h.1, h.2]

theorem writeRmw_strict {s : State} (h : s.order = {}) (a : AgentId) (rel isS : Bool) (addr : Nat) (cs : List (Nat × Byte)) :
    s.writeRmw a rel isS addr cs = s.store cs := by
  have hp : (s.put cs).order = {} := h
  have hf (l : List (Nat × Byte)) (u : State) (hu : u.order = {}) :
      l.foldl (fun u c => u.publish a (u.flaggedBy a isS addr) (.byte c.1 a.coreId false)) u = u := by
    induction l with
    | nil => rfl
    | cons c t ih => rw [List.foldl_cons, publish_strict hu]; exact ih
  rw [store_eq_put h]
  cases rel <;> simp [State.writeRmw, performOwn_strict h, storeRmw_eq_put h, hf _ _ hp]

/-! ### The canonical form of memory -/

theorem mem_wf_put (s : State) (cs : List (Nat × Byte)) (h : Memory.wf s.mem = true) : Memory.wf (s.put cs).mem = true := mem_wf_sets _ _ h

theorem wf_put (s : State) (cs : List (Nat × Byte)) (h : s.wf = true) : (s.put cs).wf = true := by
  simp only [State.wf, Bool.and_eq_true] at h ⊢
  exact ⟨mem_wf_put s cs h.1, by simpa using h.2⟩

/-- An update of the order alone keeps the good form. -/
theorem wf_order (s : State) (o : Order) (h : s.wf = true) : ({ s with order := o } : State).wf = true := h

theorem wf_arrive (s : State) (w : Write) (h : s.wf = true) : (s.arrive w).wf = true := by
  unfold State.arrive State.storeOpen State.storeRmw State.store State.released State.mapWrites
  split
  · exact wf_put _ _ h
  · split
    · dsimp only
      split <;> exact wf_put _ _ h
    · split <;> exact wf_put _ _ h

theorem wf_land (s : State) (id : Nat) (h : s.wf = true) : (s.land id).wf = true := by
  unfold State.land
  split
  · exact wf_arrive _ _ h
  · exact h

theorem wf_lands (l : List Write) (s : State) (h : s.wf = true) : (s.lands l).wf = true := by
  unfold State.lands
  induction l generalizing s with
  | nil => exact h
  | cons w t ih => exact ih _ (wf_land s w.id h)

/-- Performing late writes keeps the good form. -/
theorem wf_perform (s : State) (p : Write → Bool) (h : s.wf = true) : (s.perform p).wf = true := by
  unfold State.perform
  split
  · exact h
  · exact wf_lands _ s h

theorem wf_mapWrites (s : State) (f : Write → Write) (h : s.wf = true) : (s.mapWrites f).wf = true := h

theorem wf_acquire (s : State) (a : AgentId) (p : Holder → Bool) (h : s.wf = true) : (s.acquire a p).wf = true := by
  unfold State.acquire
  split
  · exact h
  · exact wf_mapWrites _ _ (wf_perform s _ h)

theorem wf_weakly (s : State) (late : Bool) (ws : List Write) (cs : List (Nat × Byte)) (h : s.wf = true) : (s.weakly late ws cs).wf = true := by
  unfold State.weakly State.storeOpen
  split
  · exact wf_store s cs h
  · dsimp only
    split
    · exact h
    · exact wf_put _ _ h

theorem wf_writeHeld (s : State) (a : AgentId) (hs : List Holder) (l : List Spot) (h : s.wf = true) : (s.writeHeld a hs l).wf = true := by
  unfold State.writeHeld
  dsimp only
  split
  · exact wf_weakly _ _ _ _ h
  · exact wf_weakly _ _ _ _ (wf_perform s _ h)

end Sys2Proof.Machine
end

