-- ==== Sys2Proof/Laws/Scu.lean ====
section
/-! SUPPORT. What the frame of an SCU instruction does: one lemma for an instruction that runs, one for one that is guarded off, and what
completing leaves unchanged. -/

namespace Sys2Proof.Machine

/-- A guarded-off instruction only moves on (05 R102). -/
theorem scu_off (s : State) (gd : Guard) (touch : List Nat) (size : Nat) (f : State → ScuOut) (h : (s.ctx s.here).guardOn gd = false) :
    s.scu gd touch size f = s.finish size := by
  simp [State.scu, h]

/-- An instruction that runs does what its body says. -/
theorem scu_runs (s : State) (gd : Guard) (touch : List Nat) (size : Nat) (f : State → ScuOut) (h : s.runs gd touch) :
    s.scu gd touch size f = (f s).settle (s.ctx s.here).blocked size := by
  obtain ⟨hg, hc, hu⟩ := h
  have ht : (s.ctx s.here).token touch = none := by
    simp only [Ctx.token, List.find?_eq_none]
    intro x hx
    have := hc x hx
    by_cases hr : x.reg = 0 <;> simp_all
  have hr : s.readTokens touch = s := by
    have : (s.ctx s.here).unread.filter touch.contains = [] := by simpa [List.filter_eq_nil_iff] using hu
    simp [State.readTokens, this]
  simp [State.scu, hg, ht, hr]

/-- The state in which an instruction has completed, which may have paid as it began to wait. -/
def State.completed (s : State) (waited : Bool) (size : Nat) : State := (s.pay waited).modCtx s.here (fun x => x.complete size)

theorem settle_done (s : State) (waited : Bool) (size : Nat) : (ScuOut.done s).settle waited size = .next (s.completed waited size) := by
  cases waited <;> rfl

theorem charge_core (s : State) (c k : CoreId) (cls cost : Nat) :
    (s.charge c cls cost).core k
      = if c = k then { s.core c with buckets := setNth (s.core c).buckets cls (((s.core c).buckets.getD cls {}).spend cost) } else s.core k := by
  simp [State.charge]

@[simp] theorem completed_here (s : State) (waited : Bool) (size : Nat) : (s.completed waited size).here = s.here := by cases waited <;> rfl
@[simp] theorem completed_ctx (s : State) (waited : Bool) (size : Nat) (c : CtxId) :
    (s.completed waited size).ctx c = if s.here = c then (s.ctx s.here).complete size else s.ctx c := by
  cases waited <;> simp [State.completed, State.pay, State.charge]
@[simp] theorem completed_rd (s : State) (waited : Bool) (size : Nat) (z : Nat) : (s.completed waited size).rd z = s.rd z := by cases waited <;> rfl
@[simp] theorem completed_word (s : State) (waited : Bool) (size : Nat) (z : Nat) : (s.completed waited size).word z = s.word z := by cases waited <;> rfl

/-- What completing changes: the contexts and the cores. -/
theorem completed_frame (s : State) (waited : Bool) (size : Nat) : { s.completed waited size with ctxs := s.ctxs, cores := s.cores } = s := by
  cases waited <;> rfl

/-- A completed instruction whose body changed its own context only has paid, and left the rest. -/
theorem scuPaid_completed (s t : State) (size : Nat) (ha : t.agent = s.agent) (hc : ∀ c, c ≠ s.here → t.ctx c = s.ctx c)
    (hk : ∀ c, t.core c = s.core c) : s.ScuPaid (t.completed (s.ctx s.here).blocked size) := by
  have hh : t.here = s.here := by simp [State.here, ha]
  cases hb : (s.ctx s.here).blocked
  · refine ⟨fun c h => by simp [hh, Ne.symm h, hc c h], fun c h => by simp [State.completed, State.pay, charge_core, hh, Ne.symm h, hk],
      by simp [State.completed, State.pay, charge_core, hh, hk], fun i hi => ?_⟩
    by_cases h0 : i = 0
    · subst h0; simp [State.completed, State.pay, charge_core, hh, hk, hb]
    · simp [State.completed, State.pay, charge_core, hh, hk, h0, Ne.symm h0]
  · refine ⟨fun c h => by simp [hh, Ne.symm h, hc c h], fun c h => by simp [State.completed, State.pay, hk],
      by simp [State.completed, State.pay, hh, hk], fun i hi => ?_⟩
    simp [State.completed, State.pay, hh, hk, hb]

/-- The register written is the one that changes; g0 stays 0. -/
theorem reg_setReg_ctx (x : Ctx) (d i : Nat) (v : Word) (hd : d < 32) :
    (x.setReg d v).reg i = if i = d ∧ d ≠ 0 then v else x.reg i := by
  unfold Ctx.setReg Ctx.reg
  by_cases h0 : d = 0
  · simp [h0]
  · by_cases hi : i = d
    · subst hi; simp [h0, hd]
    · by_cases hz : i = 0 <;> simp [h0, hi, hz, Ne.symm hi, Ne.symm h0]

@[simp] theorem complete_reg (x : Ctx) (size i : Nat) : (x.complete size).reg i = x.reg i := rfl

@[simp] theorem complete_cond (x : Ctx) (size i : Nat) : (x.complete size).cond i = x.cond i := rfl

/-- An instruction that writes one register from its context completes with that value and changes nothing else. -/
theorem scuWrite_spec (s : State) (gd : Guard) (touch : List Nat) (size d : Nat) (f : Ctx → Word) (h : s.runs gd touch) (hd : d < 32) :
    ∃ t, s.scuWrite gd touch size d f = .next t ∧ (s.ctx s.here).WroteReg (t.ctx s.here) d (f (s.ctx s.here)) size ∧ s.ScuOnly t := by
  refine ⟨_, by rw [State.scuWrite, scu_runs _ _ _ _ _ h, settle_done], ⟨?_, ?_⟩, ?_, ?_, ?_⟩
  · intro i; simp [reg_setReg_ctx _ _ _ _ hd]
  · simp only [completed_ctx, modCtx_eq, setCtx_reads, ctx_setCtx, if_true]
    unfold Ctx.setReg
    split <;> rfl
  · cases (s.ctx s.here).blocked <;> rfl
  · intro a; simp
  · exact scuPaid_completed s _ size rfl (fun c h => by simp [Ne.symm h]) (fun c => by simp)

end Sys2Proof.Machine
end

