-- ==== Sys2Proof/Tests/Slice0.lean ====
section
/-! SUPPORT. Small tests: an ill-formed term for each check of WellFormed, words of the manual decoded, single steps, and for every statement
a state and operands that meet its hypotheses. Expected values are the manual's worked examples or hand calculation from its rules. -/

namespace Sys2Proof.Tests

open Sys2Proof Sys2Proof.Machine

set_option Elab.async false

/-! ### Well-formedness: one ill-formed term per check -/

theorem test_wf_add : (Instr.add .always 31 0 7).wf = true := by decide
theorem test_ill_guard : (Instr.add ⟨15, 1⟩ 1 2 3).wf = false := by decide
theorem test_ill_width : (Instr.add .always 32 2 3).wf = false := by decide
theorem test_ill_load_order : (Instr.ld .always 1 2 0 3 3 0).wf = false ∧ (Instr.sld .always 1 2 0 3 0 1).wf = false := by decide
theorem test_ill_store_order : (Instr.st .always 1 2 0 3 2 0).wf = false := by decide
theorem test_ill_kop : (Instr.kand .always 16 0 0).wf = false ∧ (Instr.kpop .always 16).wf = false ∧ (Instr.kpop16 16).wf = false := by decide
theorem test_ill_register : (Instr.mfs .always 1 7).wf = false ∧ (Instr.mts .always 1 0x200).wf = true := by decide
theorem test_ill_blk : (Instr.blk 1 1).wf = false ∧ (Instr.blk 2 0).wf = false := by decide
theorem test_ill_type : (Instr.vadd .always 0 0 0 3).wf = false ∧ (Instr.viadd .always 0 0 0 3).wf = false := by decide
theorem test_ill_convert : (Instr.vcvt .always 0 0 3 3).wf = false ∧ (Instr.vpack .always 0 0 0 2).wf = false := by decide
theorem test_ill_compare : (Instr.vcmpf .always 0 0 0 5 0).wf = false ∧ (Instr.vcmpi .always 0 0 0 6 0).wf = false := by decide
theorem test_ill_vcfg : (Instr.vcfg 0 5).wf = false ∧ (Instr.vcfg 4 0).wf = false := by decide
theorem test_ill_matrix : (Instr.mpln .always 3).wf = false ∧ (Instr.mma .always 0 0 120 1 0).wf = false := by decide
theorem test_ill_wait : (Instr.mwait .always 2 4 1).wf = false := by decide
theorem test_ill_packet : (Instr.qcall 2 1).wf = false ∧ (Instr.qpred 6 0 0 1).wf = false ∧ (Instr.qloop 0).wf = false := by decide
theorem test_ill_event : (Instr.offer 12).wf = false ∧ (Instr.taskStart ⟨0, 64, 0⟩).wf = false := by decide

/-! ### Decoding: words of the manual (05 R99, 06 R145, 07, 08, 09, 10, 13) and packets (14 R298) -/

theorem test_decode16 : [0x1810, 0x27CE, 0x1944, 0x120E, 0x001A].map decode16
    = [.ok (.li16 3 0), .ok (.addi16 4 31), .ok (.add16 3 5), .ok (.addi16 2 8), .ok .nop16] := rfl
theorem test_decode_scu : [0xF190_2011, 0xF000_301F, 0xF144_0C2D, 0xF120_0099, 0x2000_0023, 0xF0CC_0F31, 0xF000_0151].map (decode32 .scu)
    = [.ok (.li .always 6 0x2040), .ok (.pbt .always 0 6), .ok (.sld .always 5 2 0 3 0 0), .ok (.cmpi .always 1 4 0 1), .ok (.xfer ⟨2, 0⟩ 0),
       .ok (.sst .always 3 6 0 3 3 0), .ok (.park .always)] := rfl
theorem test_decode_ve : [0x3042_01CF, 0xF004_0063, 0xF204_249B].map (decode32 .ve)
    = [.ok (.vld ⟨3, 0⟩ 2 1 0 1 1), .ok (.dwait 0 1), .ok (.vcmpf .always 2 1 2 2 1)] := rfl
theorem test_decode_me : [0x0000_000F, 0x0010_0011, 0xF010_0003, 0xF400_0007, 0xF001_F009, 0x6000_000D].map (decode32 .me)
    = [.ok (.mzro ⟨0, 0⟩ 0), .ok (.mcat ⟨0, 0⟩ 0 2), .ok (.mcel .always 0 1), .ok (.mpln .always 2), .ok (.mma .always 0 0 31 0 0),
       .ok (.mret ⟨6, 0⟩ 0)] := rfl
theorem test_decode_ce : [0xF0C4_0007, 0xF0C4_0009].map (decode32 .ce) = [.ok (.cpush .always 3 1), .ok (.cpop .always 3 1)] := rfl
theorem test_reject : [decode32 .scu 0xF800_0083, decode32 .scu 0x83 , decode32 .scu 0xF000_07FF, decode32 .ve 0xF000_0183]
    = [.error .operand, .ok (.sub ⟨0, 0⟩ 0 0 0), .error .reserved, .error .operand] := rfl
theorem test_packets : [decodePacket [0x00030002, 0x003E9000, 7], decodePacket [0x000D], decodePacket [0x00020003], decodePacket [0x00010103],
      decodePacket [0x00030002, 0x003E9002, 7]]
    = [.ok (.qcall 0x003E9000 7), .error (.packet 0x01), .error (.packet 0x02), .error (.packet 0x03), .error (.packet 0x07)] := rfl
theorem test_round_trip_packets : (∀ i ∈ [Instr.qlaunch 1 255 3 0xFFF 65535 0xFFFFF 0xFFFFFFFFFFFFFFC0 0xFFFFFFFF 0xFFFFFFFFFFFFFFFF,
      .qpred 5 0x3FFFFC 0xFFFFFFFF 255, .qsignal 1 0xFFFFFFFF 0xFFFFFFFF, .qwait 1 0xFFFFFFFF 0xFFFFFFFF 1023, .qnop 1024, .qwrite 0x3FFFFC 7,
      .qloop 65535, .qjump 0x3FFFFC 1],
    (match decodePacket (encodePacket i) with | .ok j => decide (j = i) | .error _ => false) = true) := by decide

/-! ### States of tests -/

/-- Slot 0 of core 0 of die 0. -/
def slot : CtxId := ⟨0, 0, 0⟩

/-- The SCU of a slot whose task has started, its context as given. -/
def scuS (x : Ctx) : State := (({ State.reset with mode := .running, agent := slot.agent .scu } : State).setTask slot (some placedTask)).setCtx slot x

/-- The docent of core 0 of die 0. -/
def docS (x : Ctx) : State := ({ State.reset with mode := .running, agent := ⟨0, 0, 4, .scu⟩ } : State).setCtx ⟨0, 0, 4⟩ x

/-- A context whose first registers hold the given values. -/
def ctxG (g : List Word) : Ctx := { g := (List.range 32).foldl (fun v i => v.setIfInBounds i (g.getD i 0)) (Vector.replicate 32 0) }

/-- Page tables of ASID 0 on die 0 that map every address below 2^36 to itself, readable and writable (15 R325). -/
def paged (s : State) : State :=
  (((s.setReg 0x4300000000 0x80001).storeAt (vatAt 0 0x80000) (natLe 8 0x2001)).storeAt (vatAt 0 0x2000) (natLe 8 0x4001)).storeAt
    (vatAt 0 0x4000) (natLe 8 0xF)

/-- The task of tests with 16 words of the die vault and of the package vault. -/
def allotted : Task := { placedTask with allot := [(0, 0, 16), (1, 0, 16)] }

/-- An instruction without guard on a context with no pending copy runs. -/
theorem test_runs (s : State) (l : List Nat) (h : (s.ctx s.here).copies = []) (u : (s.ctx s.here).unread = [] := by rfl) : s.runs .always l := by
  refine ⟨by simp [Ctx.guardOn, Guard.always, Ctx.cond], ?_, ?_⟩
  · rw [h]; simp
  · rw [u]; simp

/-! ### States and operands that meet the hypotheses of the statements -/

/-- AluOperations, MultiplyDivide, ConditionOperations: the corner operands of 06 R134 and R138, and the last pair. -/
theorem test_hyps_alu :
    let s := scuS (ctxG [0, 0x8000000000000000, BitVec.allOnes 64])
    s.runs .always [31, 1, 2] ∧ (31 : Nat) < 32 ∧ (s.ctx s.here).reg 1 = 0x8000000000000000 ∧ (s.ctx s.here).reg 2 = BitVec.allOnes 64 :=
  ⟨test_runs _ _ rfl, by decide, by decide +kernel, by decide +kernel⟩

/-- ImmediateOperations, CONDITION registers, PBT: the bounds of the immediate fields. -/
theorem test_hyps_immediate :
    let s := scuS {}
    s.runs .always [0, 1] ∧ s.runs .always [31] ∧ (63 : Nat) < 64 ∧ (2 ^ 15 - 1 : Nat) < 2 ^ 15 ∧ (2 ^ 14 - 1 : Nat) < 2 ^ 14 ∧ (7 : Nat) < 8 :=
  ⟨test_runs _ _ rfl, test_runs _ _ rfl, by decide, by decide, by decide, by decide⟩

/-- VotePop: an entry to take, and an empty queue. -/
theorem test_hyps_votes :
    (scuS { votes := [true, false] }).runs .always [] ∧ ((scuS { votes := [true, false] }).ctx slot).votes = true :: [false]
      ∧ ((scuS {}).ctx slot).votes = [] :=
  ⟨test_runs _ _ rfl, rfl, rfl⟩

/-- ControlTransfers: no pending transfer, and each delay slot. -/
theorem test_hyps_transfers :
    ((scuS {}).ctx slot).xfer = none ∧ (scuS {}).runs .always [31]
      ∧ ((scuS { xfer := some ⟨6, true, 2⟩ }).ctx slot).xfer = some ⟨6, true, 2⟩ ∧ (scuS { xfer := some ⟨6, false, 1⟩ }).runs .always []
      ∧ ((scuS { xfer := some ⟨6, false, 1⟩ }).ctx slot).xfer = some ⟨6, false, 1⟩ :=
  ⟨rfl, test_runs _ _ rfl, rfl, test_runs _ _ rfl, rfl⟩

/-- Whether a translation succeeds with the given bytes. -/
def maps (r : MapRes) (as : List Nat) : Bool :=
  match r with
  | .ok l _ => l == as
  | _ => false

/-- A translation that succeeds has a state. -/
theorem test_maps (r : MapRes) (as : List Nat) (h : maps r as = true) : ∃ u, r = .ok as u := by
  cases r with
  | ok l u => simp only [maps, beq_iff_eq] at h; exact ⟨u, h ▸ rfl⟩
  | fault c v s => simp [maps] at h
  | absent c v s => simp [maps] at h
  | busy s => simp [maps] at h

/-- VaLoadsAndStores, AtomicOperations: a doubleword the page tables map, for a load, a store and an atomic; Translation: its walk. -/
theorem test_hyps_va :
    let s := paged (scuS (ctxG [0, 0x20008]))
    s.runs .always [2, 1] ∧ (∃ u, s.mapVA s.here.coreId .scu (s.asid s.here) 0x20008 8 true false = .ok ((List.range 8).map (vatAt 0 0x20008 + ·)) u)
      ∧ (∃ u, s.mapVA s.here.coreId .scu (s.asid s.here) 0x20008 8 false true = .ok ((List.range 8).map (vatAt 0 0x20008 + ·)) u)
      ∧ (∃ u, s.mapVA s.here.coreId .scu (s.asid s.here) 0x20008 8 true true = .ok ((List.range 8).map (vatAt 0 0x20008 + ·)) u)
      ∧ s.walk 0 0 0x20008 = .leaf 0xF 2 ∧ s.cachedLeaf ⟨0, 0⟩ .scu 0 0x20008 = none ∧ s.duty.testBit 6 = false
      ∧ s.heldBack true true = false :=
  ⟨test_runs _ _ rfl, test_maps _ _ (by decide), test_maps _ _ (by decide), test_maps _ _ (by decide), by decide, by decide, by decide, by decide⟩


/-- LocalLoadsAndStores, AtomicOperations: the last bytes a task may store to in a slice, the docent's last bytes, and the last bytes of a tile. -/
theorem test_hyps_local :
    let s := scuS {}
    s.runs .always [2, 1] ∧ 0x17EFF8 % 8 = 0 ∧ 0x17EFF8 % 0x200000 + 8 ≤ 0x17F000 ∧ s.here.ctx ≠ 4
      ∧ (docS {}).here.ctx = 4 ∧ 0x17FFF8 % 0x200000 + 8 ≤ 0x180000 ∧ s.heldBack true true = false
      ∧ 0x10000000 ≤ 0x100FFFF8 ∧ (0x100FFFF8 - 0x10000000) / 65536 < s.tileCount s.here ∧ s.owned s.here 15 = false
      ∧ s.exchanging s.here 15 = false ∧ s.ecc = [] :=
  ⟨test_runs _ _ rfl, by decide +kernel⟩

/-- ScalarAccessTraps: an operand for each of the checks, and a tile that an ME owns. -/
theorem test_hyps_scalar_traps :
    let s := (scuS {}).setMe slot { owned := [(3, none)] }
    s.runs .always [2, 1] ∧ 2 ^ 56 ≤ (2 ^ 56 : Word).toNat ∧ (0x1001 : Nat) % 2 ≠ 0 ∧ (0x180000 : Nat) < 0x180000 % 0x200000 + 1
      ∧ (0x08000000 : Nat) < 0x0C000000 ∧ s.tileCount s.here ≤ (0x10100000 - 0x10000000) / 65536
      ∧ s.owned s.here ((0x10030000 - 0x10000000) / 65536) = true ∧ (0x0C000FF8 : Nat) < 0x0C001000 ∧ 0x17F000 < 0x17F000 % 0x200000 + 1 :=
  ⟨test_runs _ _ rfl, by decide +kernel⟩

/-- A state whose die 0 has a window 2 of 64 KiB to package 1, die 3, for ASID 0 (15 R335). -/
def windowed (s : State) : State :=
  (s.setReg (windowReg 0 2) 0x00100000E0000601).setReg (windowReg 0 2 + 8) 0

/-- WindowLoads: the last doubleword of a window, before the request, with its reply, and with a report owed before a release; a window
that may only be read. -/
theorem test_hyps_window :
    let s := windowed (scuS (ctxG [0, 0x9000FFF8]))
    let r : Remote := ⟨0, 0, 0, 2, 0xFFF8, some (some (natLe 8 5)), false⟩
    let o := (scuS (ctxG [0, 0x9000FFF8])).setReg (windowReg 0 2) 0x00100000C0000601
    s.runs .always [3, 1] ∧ s.runs .always [3, 1, 2] ∧ (s.ctx s.here).remote = none ∧ s.windowOk s.here 2 0xFFF8 8 true true = true
      ∧ s.freeTag 0 = some (0, 0) ∧ s.heldBehind ⟨some s.here.coreId, (s.window 0 2).tpkg, (s.window 0 2).tdie⟩ = false
      ∧ 0x9000FFF8 = 0x80000000 + 2 * 0x08000000 + 0xFFF8 ∧ (scuS { remote := some r }).runs .always [3, 1]
      ∧ ((scuS { remote := some r }).ctx slot).remote = some r ∧ s.heldBack true true = false ∧ (s.ctx s.here).reports = []
      ∧ o.windowOk o.here 2 0xFFF8 8 false false = true ∧ ((o.window 0 2).r && (o.window 0 2).w) = false :=
  ⟨test_runs _ _ rfl, test_runs _ _ rfl, rfl, by decide +kernel, by decide +kernel, by decide +kernel, by decide, test_runs _ _ rfl, rfl, by decide +kernel,
    rfl, by decide +kernel⟩

/-- A table that gives one value everywhere gives it for every key it has. -/
theorem test_table (v : Link) (k : Nat) : ∀ l : List Nat, k ∈ l → Table.get ({} : Link) (l.map (fun x => (x, v))) k = v
  | [], h => by cases h
  | x :: t, h => by
    by_cases e : x = k
    · simp [Table.get, e]
    · have ih := test_table v k t (by simpa [Ne.symm e] using h)
      simpa [Table.get, e] using ih

/-- The links of the way from die 0 to package 1, die 3. -/
def ways : List Nat := ((List.range 8).map (fun hop => (List.range 16).map (Config.linkOf 0 0 1 3 hop))).flatten

/-- A package whose partition 0 has die 0 and domain key 9, and whose links on that way carry it. -/
def routed (s : State) : State :=
  { (windowed s).setReg 0x4301000000 0x100 with links := ways.map (fun l => (l, ({ parts := 15 } : Link))) }.setReg 0x4301000008 9

/-- WindowLoads: a relaxed fetch-and-add whose way is open. -/
theorem test_hyps_way : (routed (scuS (ctxG [0, 0x9000FFF8]))).deniedPath 0 ⟨some ⟨0, 0⟩, 1, 3⟩ = false := by
  have key : (routed (scuS (ctxG [0, 0x9000FFF8]))).carriedKey 0 = 9 := by decide +kernel
  have part : (routed (scuS (ctxG [0, 0x9000FFF8]))).partOf 0 = some 0 := by decide +kernel
  have skip : (routed (scuS (ctxG [0, 0x9000FFF8]))).skipped ⟨some ⟨0, 0⟩, 1, 3⟩ = false := by decide +kernel
  have link : ∀ x ∈ ways, (routed (scuS (ctxG [0, 0x9000FFF8]))).link x = { parts := 15 } := fun x h => test_table _ _ _ h
  have hop : ∀ n, n < 8 → (routed (scuS (ctxG [0, 0x9000FFF8]))).linkAt (some 0) 0 ⟨some ⟨0, 0⟩, 1, 3⟩ n ∈ ways := by
    intro n hn
    have all : ∀ x ∈ (List.range 16).map (Config.linkOf 0 0 1 3 n), x ∈ ways := fun x hx =>
      List.mem_flatten.mpr ⟨_, List.mem_map.mpr ⟨n, List.mem_range.mpr hn, rfl⟩, hx⟩
    show (((List.range 16).map (Config.linkOf 0 0 1 3 n)).find? _).getD (((List.range 16).map (Config.linkOf 0 0 1 3 n)).headD 0) ∈ ways
    cases e : ((List.range 16).map (Config.linkOf 0 0 1 3 n)).find? (fun x => ((routed (scuS (ctxG [0, 0x9000FFF8]))).link x).carries (some 0)) with
    | some x => exact all x (List.mem_of_find?_eq_some e)
    | none => exact all _ (by simp [List.range_succ_eq_map])
  have mask : (routed (scuS (ctxG [0, 0x9000FFF8]))).masked 0 ⟨some ⟨0, 0⟩, 1, 3⟩ = false := by
    simp only [State.masked, part, State.route, List.any_map, List.any_eq_false, List.mem_range]
    intro n hn
    simp only [Function.comp]
    rw [link _ (hop n hn)]
    decide
  unfold State.deniedPath
  rw [key, skip, mask]
  decide +kernel

/-- A strong posted write of slot 0 through window 2. -/
def posted1 : Posted := ⟨1, slot.agent .scu, 2, 0, 0, 0, 0, 8, true, 0, 0, 0, 1, false, none, []⟩

/-- A context of slot 0 that waits for it. -/
def fencedS (x : Ctx) : State := (scuS x).modCore ⟨0, 0⟩ (fun k => { k with posted := [posted1] })

/-- FencesAndNops: a context with nothing posted, and one whose posted write is fenced for every access, or for strong writes. -/
theorem test_hyps_fences :
    let s := fencedS { fenced := [1] }
    let w := fencedS { fencedW := [1] }
    (scuS {}).runs .always [] ∧ ((scuS {}).ctx slot).reports = [] ∧ ((scuS {}).core ⟨0, 0⟩).posted = [] ∧ s.runs .always [] ∧ s.runs .always [3, 1, 2]
      ∧ posted1 ∈ (s.core s.here.coreId).posted ∧ posted1.agent = s.agent ∧ posted1.drop = false ∧ posted1.strong = true
      ∧ posted1.id ∈ (s.ctx s.here).fenced ∧ posted1.id ∈ (w.ctx w.here).fencedW :=
  ⟨test_runs _ _ rfl, rfl, rfl, test_runs _ _ rfl, test_runs _ _ rfl, by decide +kernel⟩

/-- GuardedOffScu: k0 reads 0, the register number is assigned. -/
theorem test_hyps_guarded_off :
    let s := scuS {}
    (s.ctx s.here).guardOn ⟨0, 0⟩ = false ∧ s.docent = false ∧ s.inSlot = false ∧ s.agent.kind = .scu ∧ regClass 6 ≠ .unassigned := by
  decide +kernel

/-- GuardedOffScu, SnapshotOfSlot, WakeResumes: the docent's guard off, an XFERL's with no transfer pending; a slot with an access on its way and one
with none, and a trap that no access holds back. -/
theorem test_hyps_guarded_docent :
    let s := (docS {}).setCtx ⟨0, 0, 3⟩ { parked := .waiting }
    (s.ctx s.here).guardOn ⟨0, 0⟩ = false ∧ s.docent = true ∧ (s.ctx s.here).xfer = none ∧ (s.ctx ⟨0, 0, 3⟩).parked ≠ .no ∧ (s.ctx ⟨0, 0, 2⟩).parked = .no
      ∧ (s.ctx ⟨0, 0, 3⟩).pend = none := by
  decide +kernel

/-- BindAndUnbind, BindingTables: a region of VA space bound to an addressed byte-barrier or semaphore object, and unbound. -/
theorem test_hyps_bind :
    let s := (scuS (ctxG [0, 0x1000, 0x40, 3])).setTask slot (some allotted)
    s.runs .always [1, 2, 3] ∧ s.task s.here = some allotted ∧ spaceOf 0 0x1000 0x40 = some 0
      ∧ (match s.bindObj s.here 0 0 3 0 with | .ok _ => true | .error _ => false) = true
      ∧ (bindRegion [⟨0, 0x1000, 0x40, .sem 5, false⟩] 0 0x1000 0x1040 (.sem 5)).isSome = true
      ∧ (unbindRegion [⟨0, 0x1000, 0x40, .sem 5, false⟩] 0 0x1000 0x1040).isSome = true :=
  ⟨test_runs _ _ rfl, by decide +kernel⟩


/-- A slot with an allotment whose die-vault word 3 holds `w`, and the operands of a semaphore form. -/
def semS (w n : Word) : State := ((scuS (ctxG [0, 3, n])).setTask slot (some allotted)).setWord (dieWord 0 3) w

/-- SemaphoreForms: a count at its bounds, a barrier short of its EXPECT and at it, a wait met and unmet, a decrement met and unmet, an arm. -/
theorem test_hyps_semaphores :
    (semS (mkSem 0 0 false 5) 5).runs .always [0, 1, 2] ∧ (semS (mkSem 0 0 false 5) 5).runs .always [1, 2]
      ∧ (semS (mkSem 0 0 false 5) 5).handle slot false 3 = .ok (dieWord 0 3)
      ∧ (semS (mkSem 0 0 false 5) 5).task slot = some allotted ∧ (semS 0 0).vaultBad.contains (dieWord 0 3) = false
      ∧ (semS 0 0).vaultBad.contains (allotted.countKey 0 0) = false ∧ dieWord 0 3 ≠ allotted.countKey 0 0
      ∧ ((semS 0 0).word (allotted.countKey 0 0)).toNat ≤ allotted.p.getD 0 0 ∧ (semS 0 0).heldBack false true = false ∧ (semS 0 0).agent.kind = .scu
      ∧ 4 ≤ semMode ((semS (mkSem 0 7 false 0) 0).word (dieWord 0 3)) ∧ (2 ^ 31 - 1 : Nat) < 2 ^ 31
      ∧ semMode ((semS (mkSem 0 0 false (2 ^ 31 - 2)) 1).word (dieWord 0 3)) = 0 ∧ (2 ^ 31 - 2 : Int) + 1 < 2 ^ 31
      ∧ semMode (mkSem 3 1 false 1) = 1 ∧ semExpect (mkSem 3 1 false 1) = 3 ∧ semCount (mkSem 3 1 false 1) + 1 < 3
      ∧ semCount (mkSem 3 1 true 1) + 2 = 3 ∧ semPhase (mkSem 3 1 true 1) = decide ((1 : Int) % 2 = 1)
      ∧ (5 : Int) ≤ semCount (mkSem 0 0 false 5) ∧ semCount (mkSem 0 0 false 5) < 6 ∧ (2 ^ 28 - 1 : Nat) < 2 ^ 28 ∧ (semS 0 0).waiters = [] :=
  ⟨test_runs _ _ rfl, test_runs _ _ rfl, by rfl, by decide +kernel⟩

/-- The bytes of a legal record for the copy engine: one block at 0x10, one pass, MLVL 7 (05 R107). -/
def recBytes : List Byte := natLe 256 0x2007010010

/-- A state whose cores are all live. -/
def live (s : State) : State := { s with service := { s.service with livedie := 0xFFF, livecore := .replicate 12 (2 ^ 64 - 1) } }

/-- CommandEnqueue: a mapped record image, room in the queue, a full queue, another slot of the launch, a wait for it that its task's end has
closed. -/
theorem test_hyps_commands :
    let s := live ((paged ((scuS (ctxG [0, 0x10000, 64])).setTask ⟨0, 0, 1⟩ (some placedTask))).storeAt (vatAt 0 0x10000) recBytes)
    let full := s.setStream (slot.agent .ce) { queue := List.replicate 64 (recOf [] 0) }
    s.runs .always [3, 1] ∧ s.docent = false ∧ 0x10000 % 256 = 0 ∧ s.ecc = []
      ∧ (∃ u, s.mapVA s.here.coreId .scu (s.asid s.here) 0x10000 256 true false = .ok ((List.range 256).map (vatAt 0 0x10000 + ·)) u)
      ∧ ((s.stream (s.here.agent .ce)).queue.length < 64) ∧ 64 ≤ (full.stream (full.here.agent .ce)).queue.length
      ∧ s.peerSlot 64 = some ⟨0, 0, 1⟩ ∧ (s.ctx s.here).cmdTarget = none ∧ s.heldBack false true = false
      ∧ ((scuS { cmdTarget := some (⟨0, 0, 1⟩, true) }).ctx slot).cmdTarget = some (⟨0, 0, 1⟩, true)
      ∧ recLegal (((List.range 256).map (vatAt 0 0x10000 + ·)).map s.rd) 2 = true :=
  ⟨test_runs _ _ rfl, rfl, rfl, rfl, test_maps _ _ (by decide +kernel), by decide +kernel⟩


/-- CopyStarts: the longest copy VA to VA, and one from S-space to VA. -/
theorem test_hyps_copy :
    (scuS (ctxG [0, 0, 0x1000000, 0x1000000])).runs .always [3, 1, 2] ∧ (scuS {}).docent = false ∧ (0x1000000 : Nat) ≤ 2 ^ 24
      ∧ 0 + 0x1000000 ≤ 0x1000000 ∧ 0x1000000 + 0x1000000 ≤ 2 ^ 56 ∧ 0x17EF00 % 0x200000 + 0x100 ≤ 0x17F000 ∧ ((scuS {}).ctx slot).copies.length < 4
      ∧ (scuS {}).heldBack false false = false :=
  ⟨test_runs _ _ rfl, by decide +kernel⟩

/-- StateRegisterReads, StateRegisterWrites: a task and the docent; in and out of a handler; one number of each class; a level the supervisor
wrote, before and after the next step. -/
theorem test_hyps_registers :
    let w (n : Nat) : State := (scuS {}).modCore ⟨0, 0⟩ (fun k => { k with levelSet := some (3, n) })
    (scuS {}).runs .always [1] ∧ (docS {}).runs .always [1] ∧ (docS {}).docent = true ∧ ((scuS {}).core ⟨0, 0⟩).sawStep = (scuS {}).power.steps
      ∧ ((w 0).core ⟨0, 0⟩).levelSet = some (3, (w 0).power.steps) ∧ (1 : Nat) ≠ (w 1).power.steps
      ∧ ((scuS { depth := 1 }).ctx slot).depth ≠ 0 ∧ (scuS { depth := 1 }).runs .always [1] ∧ ((scuS {}).ctx slot).depth = 0
      ∧ regClass 7 = .unassigned ∧ regClass 0x120 = .docent ∧ (scuS {}).docent = false ∧ regClass 0x000 = .task :=
  ⟨test_runs _ _ rfl, test_runs _ _ rfl, rfl, rfl, by decide +kernel, by decide +kernel, by decide, test_runs _ _ rfl, rfl, by decide +kernel⟩

/-- StateRegisterReads: what the supervisor has written over CYCLE, SLOT and COREID, and before it has. -/
theorem test_hyps_written_over :
    let s := (scuS {}).modCore ⟨0, 0⟩ (fun k => { k with slotSet := [(0, 7)], idSet := some 3 })
    ((scuS {}).core ⟨0, 0⟩).slotSet = [] ∧ ((scuS {}).core ⟨0, 0⟩).idSet = none ∧ (s.core ⟨0, 0⟩).slotSet = [(s.here.ctx, 7)]
      ∧ (s.core ⟨0, 0⟩).idSet = some 3 ∧ (s.core ⟨0, 0⟩).levelSet = none ∧ s.power.was = s.power.settled := by
  decide +kernel

/-- ClockAndSwitchPoints: divisors 8 and 0, a field of 9 and bit 20; a task without a skim block, and one whose block at halfword 64 names
variant 1 for level 7, with entry 32 at switch point 0. -/
theorem test_hyps_clock :
    let t : Task := { placedTask with skim := some 64 }
    let s := ((scuS (ctxG [0, 0x80008])).setTask slot (some t)).storeAt (ispaceAt ⟨0, 0⟩ 128) (natLe 16 (0x0100 * 2 ^ 48 + 1 * 2 ^ 64 + 16 * 2 ^ 80 + 32 * 2 ^ 96))
    let half (j : Nat) : Nat := s.rdNat (ispaceAt ⟨0, 0⟩ (2 * (64 + j))) 2
    s.runs .always [1] ∧ s.docent = false ∧ 0x80008 < 2 ^ 20 ∧ 8 < 0x9 % 16 ∧ 2 ^ 20 ≤ 0x100000 ∧ (scuS {}).inSlot = false
      ∧ (scuS {}).task slot = some placedTask ∧ placedTask.skim = none ∧ s.task slot = some t ∧ (s.core ⟨0, 0⟩).sawStep = s.power.steps
      ∧ (s.core ⟨0, 0⟩).levelSet = none
      ∧ half (7 / 2) / 256 ^ (7 % 2) % 256 = 1 ∧ (s.ctx slot).variant = 0 ∧ 0 < half 4 % 2 ^ 11 ∧ half (5 + 1 * (half 4 % 2 ^ 11) + 0) = 32 :=
  ⟨test_runs _ _ rfl, by decide +kernel⟩

/-- ParkEndsTask: the docent, and one that is owed a report; a task that is idle; a task with a command queued. -/
theorem test_hyps_park :
    (docS { reports := [5] }).runs .always [] ∧ ((docS { reports := [5] }).ctx ⟨0, 0, 4⟩).reports = [5] ∧
    (docS {}).runs .always [] ∧ (docS {}).docent = true ∧ (scuS {}).runs .always [] ∧ (scuS {}).task slot = some placedTask
      ∧ ((scuS {}).ctx slot).reports = [] ∧ ((scuS {}).ctx slot).copies = [] ∧ (∀ k ∈ engineKinds, ((scuS {}).stream (slot.agent k)).queue = [])
      ∧ ((scuS {}).core ⟨0, 0⟩).posted = []
      ∧ ((((scuS {}).setStream (slot.agent .me) { queue := [recOf [] 0] }).stream (slot.agent .me)).queue ≠ []) :=
  ⟨test_runs _ _ rfl, rfl, test_runs _ _ rfl, rfl, test_runs _ _ rfl, rfl, rfl, rfl, by decide, rfl, by decide +kernel⟩

/-- A slot whose task runs with the given delegation (13 R280). -/
def trapS (tdlg : Word) (x : Ctx) (t : Task) : State :=
  ((scuS x).setTask slot (some t)).modCore ⟨0, 0⟩ (fun k => { k with tdlg := tdlg })

/-- TrapEntersOwnHandler, TrapEntersDocent: a cause given to either, the deepest handler that still takes one, a closed window. -/
theorem test_hyps_delivery :
    let s := trapS 0x0000000000000008 { depth := 14 } placedTask
    let d := trapS 0x0000000800000008 { wopen := false } placedTask
    s.task slot = some placedTask ∧ placedTask.frozen = false ∧ wbit (s.core ⟨0, 0⟩).tdlg 3 = true ∧ (s.ctx slot).wopen = true
      ∧ (s.ctx slot).depth < 15 ∧ (d.ctx slot).wopen = false ∧ wbit (d.core ⟨0, 0⟩).tdlg (32 + 3) = true ∧ (d.ctx ⟨0, 0, 4⟩).wopen = true
      ∧ (d.ctx ⟨0, 0, 4⟩).depth < 15 ∧ (d.core ⟨0, 0⟩).docBusy = false := by
  decide +kernel

/-- TrapIsPosted: a cause given to neither, and a supervisor queue with room; LaterTrapIsRecorded: a frozen task outside its handler. -/
theorem test_hyps_posting :
    let s : State := { trapS 0 {} placedTask with cur := { tqSet := true, tqwr := 2 ^ 32 - 2, tqrd := 2 ^ 32 - 2 } }
    let t : Task := { placedTask with frozen := true, later := [1, 2, 3, 4], laterCount := 15 }
    s.task slot = some placedTask ∧ wbit (s.core ⟨0, 0⟩).tdlg 3 = false ∧ wbit (s.core ⟨0, 0⟩).tdlg (32 + 3) = false ∧ s.cur.tqSet = true
      ∧ s.cur.tqrd = s.cur.tqwr ∧ s.cur.tqwr < 2 ^ 32 - 1 ∧ s.ecc = [] ∧ (s.core ⟨0, 0⟩).docBusy = false
      ∧ (trapS 0 {} t).task slot = some t ∧ t.frozen = true ∧ t.inHandler = false := by
  decide +kernel

/-- HandlerReturn: the resume point of a first delay slot; TREN and TRET at depth 2 and 1, and outside a handler. -/
theorem test_hyps_return :
    let x : Ctx := { pc := 16383, xfer := some ⟨16383, true, 2⟩ }
    x.pc < 16384 ∧ (∀ f, x.xfer = some f → f.tgt < 16384 ∧ (f.left = 1 ∨ f.left = 2)) ∧ (scuS { depth := 2 }).runs .always []
      ∧ ((scuS { depth := 2 }).ctx slot).depth = 2 ∧ tpcBad 0 = false ∧ (scuS { depth := 1 }).docent = false
      ∧ (scuS { depth := 1 }).task slot = some placedTask ∧ ((scuS { depth := 1 }).ctx slot).xfer = none ∧ ((scuS {}).ctx slot).depth = 0 :=
  ⟨by decide, fun f h => by cases h; decide, test_runs _ _ rfl, rfl, by decide +kernel, rfl, rfl, rfl, rfl⟩

/-- SnapshotOfSlot, WakeResumes: the docent takes slot 3's snapshot to the last place for one; a frozen task resumes, and is reflected. -/
theorem test_hyps_docent :
    let s := (docS (ctxG [0, 3, 0x17FE00])).setTask ⟨0, 0, 3⟩ (some { placedTask with frozen := true })
    s.runs .always [1, 2] ∧ s.runs .always [1] ∧ s.docent = true ∧ ((s.ctx s.here).reg 1).toNat = 3 ∧ 0x17FE00 % 512 = 0 ∧ 0x17FE00 % 0x200000 < 0x180000
      ∧ s.ecc = [] ∧ s.task ⟨0, 0, 3⟩ = some { placedTask with frozen := true } ∧ (s.ctx ⟨0, 0, 3⟩).wopen = true ∧ (s.ctx ⟨0, 0, 3⟩).depth < 15
      ∧ s.task ⟨0, 0, 2⟩ = none :=
  ⟨test_runs _ _ rfl, test_runs _ _ rfl, by decide +kernel⟩


/-- The record of an engine's command in tests: one pass of one block, no mark before the last. -/
def rec1 (k : AgentKind) : Rec := { placedRec k with iaddr := 2 }

/-- A slot whose engine stands in the body of a command under a record. -/
def engR (k : AgentKind) (t : Task) (r : Rec) : State :=
  let x : Machine.Stream := { queue := [r], appended := 1, active := true, epc := 4, inBody := true, bodyStart := 4, bodyLen := 4, repsLeft := 1 }
  (({ State.reset with mode := .running, agent := slot.agent k } : State).setTask slot (some t)).setStream (slot.agent k) x

/-- The same with the record and the task of most tests. -/
def engS (k : AgentKind) : State := engR k allotted (rec1 k)

/-- A command that is current and waits for no translation runs. -/
theorem test_engine_runs (k : AgentKind) : (engS k).engineRuns (rec1 k) := by
  refine ⟨?_, ?_, ?_⟩ <;> cases k <;> decide +kernel

/-- Rows of an open window with no access pending are open. -/
theorem test_rows (reads writes : List Nat) : (engS .ve).rowsOpen reads writes := by
  refine ⟨by decide +kernel, ⟨rfl, by decide +kernel, by decide +kernel, ?_, ?_⟩, ?_⟩
  · intro n _; rfl
  · intro n _; exact ⟨rfl, fun x hx => by cases hx⟩
  · intro n _ a _ h; cases h

/-- IntegerLanes, LaneMovement, FloatLanes, ConversionsAndReductions, PredicatesAndVotes: the widest type codes, with votes to send, to
discard and none to take. -/
theorem test_hyps_lanes :
    (engS .ve).engineRuns (rec1 .ve) ∧ (engS .ve).rowsOpen [1, 2, 63] [63] ∧ (2 : Nat) < 3 ∧ (13 : Nat) < 14
      ∧ ((engS .ve).ctx slot).revote = 0 ∧ (((engS .ve).setCtx slot { revote := 1 }).ctx slot).revote ≠ 0
      ∧ 8 ≤ (((engS .ve).setCtx slot { votes := List.replicate 8 true }).ctx slot).votes.length :=
  ⟨test_engine_runs _, test_rows _ _, by decide, by decide, rfl, by decide, by decide⟩

/-- IntegerLanes, FloatLanes, ConversionsAndReductions: a bad word is named by its address. -/
theorem test_hyps_bad_words : ∀ z ∈ ({ engS .ve with ecc := [scratchAt 0 0x1000] } : State).ecc, z % 8 = 0 := by decide +kernel

/-- RoundingKeepsEncodings: encodings at the ends of their formats, the scale that makes every magnitude of FP32 whole, and a sum with a zero. -/
theorem test_hyps_rounding :
    (0 < fp32.emin - fp32.fbits + (150 : Nat)) ∧ (0 ≤ (-150 : Int) + (150 : Nat)) ∧ (∃ v ∈ [Val.fin 3 (-1), fp32.decode 0], v.isZero = false)
      ∧ (fp32.decode 0).isZero = true ∧
    (2 ^ 32 - 1 : Nat) < 2 ^ fp32.width ∧ (fp32.decode 0x7F7FFFFF).isNan = false ∧ (e2m1.decode 15).isNan = false ∧ (4 : Nat) < 5 := by
  decide +kernel

/-- A pail of two slots of 512 bytes at the allotment's first words (03 R67), with one slot filled. -/
def pailS (k : AgentKind) : State :=
  ((((engS k).setWord (dieWord 0 0) (mkSem 0 2 false 1)).setWord (dieWord 0 1) (mkSem 0 3 false 1)).setWord (dieWord 0 2) 1).setWord
    (dieWord 0 3) (0x2000 + 1 * 2 ^ 36)

/-- VectorControl: a pail's slot address, a counter at a limit and above it, the last tile and the first that is none. -/
theorem test_hyps_vector_control :
    (engS .ve).engineRuns (rec1 .ve) ∧ (pailS .ve).pail slot 0 = .ok (dieWord 0 0) ∧ (pailS .ve).failedWord (slot.agent .ve) ((List.range 4).map (dieWord 0 0 + ·)) = none
      ∧ 1 < wfld ((pailS .ve).word (dieWord 0 3)) 36 8 + 1 ∧ ((engS .ve).ve slot).counter 7 ≤ 0
      ∧ (15 : Nat) < (engS .ve).tileCount slot ∧ (engS .ve).owned slot 15 = false ∧ (engS .ve).tileCount slot ≤ 16 ∧ (2 ^ 16 - 1 : Nat) < 2 ^ 16 :=
  ⟨test_engine_runs _, by rfl, by decide +kernel⟩

/-- Whether checks of runs find places for all of them and no window among them. -/
def plain (r : Except (Nat × Word) (Option (List (Run × VLoc)))) : Bool :=
  match r with
  | .ok (some l) => (windowRuns l).isEmpty
  | _ => false

/-- VectorAccessIssues: a full row of scratchpad at an aligned address, loaded and stored; a gather of zero offsets; a guard whose lanes are all off. -/
theorem test_hyps_vector_access :
    let s := (engS .ve).modStream (slot.agent .ve) (fun x => { x with a := x.a.setIfInBounds 1 (BitVec.ofNat 64 (2 ^ 63 + 0x1000)) })
    let g := (s.ve slot).guard .always
    let z := ((s.setVe slot { s.ve slot with p := .replicate 15 0 }).ve slot).guard ⟨0, 0⟩
    z = 0 ∧ (List.range 128).filter (laneOn z 32) = [] ∧ (List.range 128).filter (laneOn g 32) ≠ [] ∧ ((s.ve slot).counter 0 < 63) ∧ plain (s.vCheckAll slot true (vmRuns g (BitVec.ofNat 64 (2 ^ 63 + 0x1000)))) = true
      ∧ plain (s.vCheckAll slot false (vmRuns g (BitVec.ofNat 64 (2 ^ 63 + 0x1000)))) = true
      ∧ (s.ve slot).aliasWaits (vmRuns g (BitVec.ofNat 64 (2 ^ 63 + 0x1000))) = false ∧ (2 ^ 63 + 0x1000) % 64 = 0 := by
  decide +kernel


/-- VectorAccessIssues: an address in tile 0 that the ME owns, that it does not, and that a pending load writes. -/
theorem test_hyps_alias :
    let at_ : Word := BitVec.ofNat 64 (2 ^ 63 + 0x10000000)
    let every := vmRuns (BitVec.allOnes 256) at_
    let o := (engS .ve).setMe slot { owned := [(0, none)] }
    let p := (engS .ve).setVe slot { pend := [⟨1, 0, true, 0, 0, 4, [], [], [], [], [], false, none, false, true⟩] }
    o.aliasHeld slot every = true ∧ (engS .ve).aliasHeld slot every = false ∧ (p.ve slot).aliasWaits every = true
      ∧ ((engS .ve).ve slot).aliasWaits every = false := by
  decide +kernel

/-- A load or store of one byte at S-space 0x1000 in flight on d0. -/
def access (load : Bool) : VeAccess := ⟨1, 0, load, 0, 3, 4, [(0, BitVec.ofNat 64 (2 ^ 63 + 0x1000), 7)], [], [], [], [], false, none, false, true⟩

/-- AccessCompletes: a load and a store of a byte of scratchpad. -/
theorem test_hyps_access (load : Bool) :
    let s := (engS .ve).setVe slot { pend := [access load] }
    (s.ve slot).pend.head? = some (access load) ∧ (s.core slot.coreId).posted = [] ∧ s.ecc = []
      ∧ ∃ u, s.homes slot load (access load).bytes none [] = .homes [(0, scratchAt 0 0x1000, 7)] u := by
  cases load <;> exact ⟨rfl, rfl, rfl, _, rfl⟩

/-- EngineVaultForms: a counting word and a pail of the allotment; counts met and unmet. -/
theorem test_hyps_engine_vault :
    let s := (engS .xe).setWord (dieWord 0 0) (mkSem 0 0 false 5)
    (engS .xe).engineRuns (rec1 .xe) ∧ s.task slot = some allotted ∧ s.agent.kind ≠ .scu ∧ (s.word (allotted.countKey 0 4)).toNat < allotted.p.getD 4 0 + 1
      ∧ (s.stream s.agent).guardOn (rec1 .xe) .always = true ∧ s.handle slot true 0 = .ok (dieWord 0 0) ∧ semMode (s.word (dieWord 0 0)) = 0
      ∧ (5 : Int) ≤ semCount (s.word (dieWord 0 0)) ∧ semCount (s.word (dieWord 0 0)) < 6 ∧ s.waiters = [] ∧ s.failedWord s.agent [dieWord 0 0] = none
      ∧ (pailS .xe).pail slot 0 = .ok (dieWord 0 0) ∧ (1 : Int) ≤ semCount ((pailS .xe).word (dieWord 0 0))
      ∧ (1 : Int) ≤ semCount ((pailS .xe).word (dieWord 0 1)) ∧ semCount ((pailS .xe).word (dieWord 0 0)) < 2 :=
  ⟨test_engine_runs _, rfl, by decide, by decide, by decide +kernel, by rfl, by decide +kernel, by decide +kernel, by decide +kernel, rfl, rfl, by rfl,
    by decide +kernel, by decide +kernel, by decide +kernel⟩

/-- EngineVaultForms: a byte barrier in each phase, and a word of MODE 7, which is no semaphore. -/
theorem test_hyps_engine_barrier :
    let s (w : Word) : State := (engS .xe).setWord (dieWord 0 0) w
    semMode ((s (mkSem 3 1 true 1)).word (dieWord 0 0)) = 1 ∧ semPhase ((s (mkSem 3 1 true 1)).word (dieWord 0 0)) = decide ((1 : Int) % 2 = 1)
      ∧ semPhase ((s (mkSem 3 1 true 1)).word (dieWord 0 0)) ≠ decide ((2 : Int) % 2 = 1) ∧ 4 ≤ semMode ((s (mkSem 0 7 false 0)).word (dieWord 0 0))
      ∧ (BitVec.ofNat 16 0xFFFF).toInt < 1 ∧ 1 ≤ (BitVec.ofNat 16 0x7FFF).toInt ∧ (s (mkSem 3 1 true 1)).handle slot true 0 = .ok (dieWord 0 0)
      ∧ (s (mkSem 3 1 true 1)).failedWord (slot.agent .xe) [dieWord 0 0] = none :=
  ⟨by decide +kernel, by decide +kernel, by decide +kernel, by decide +kernel, by decide +kernel, by decide +kernel, by rfl, by decide +kernel⟩

/-- EngineControl: inside a body, at its end with and without repeats, blocks and passes left; a block start; a guard that is off. -/
theorem test_hyps_engine_control :
    let r := rec1 .ce
    let two : Rec := { r with bound := [2, 1, 1, 1, 1, 1], bcnt := 2 }
    let x := (engS .ce).stream (slot.agent .ce)
    let endOf (y : Machine.Stream) : Machine.Stream := { y with epc := 6 }
    x.inBody = true ∧ x.epc + 2 < x.bodyStart + x.bodyLen ∧ (endOf x).bodyStart + (endOf x).bodyLen ≤ (endOf x).epc + 2 ∧ x.repsLeft ≤ 1
      ∧ 1 < ({ endOf x with repsLeft := 2 } : Machine.Stream).repsLeft ∧ x.blocks + 1 < two.bcnt ∧ r.bcnt ≤ x.blocks + 1
      ∧ x.levelDue r = true ∧ x.levelDue { two with mlvl := 1 } = false ∧ nestNext x.idx two.bound = some [1, 0, 0, 0, 0, 0]
      ∧ ((engS .ce).me slot).owned = [] ∧ x.guardOn r ⟨0, 1⟩ = false ∧ x.guardOn r ⟨0, 0⟩ = true ∧ ((engS .ve).ve slot).guard .always ≠ 0 := by
  decide +kernel


/-- Address registers of an engine's pass as given. -/
def engA (k : AgentKind) (a : List Word) : State :=
  (engS k).modStream (slot.agent k) (fun x => { x with a := (List.range 16).foldl (fun v i => v.setIfInBounds i (a.getD i 0)) x.a })

/-- A catalogue row of E4M3 by E4M3, 16 bytes between A rows (09 R215). -/
def row33 : BitVec 128 := 0x100033

/-- MatrixForms: an image of the cellar at VA 0x8000, a bound plane of its format, a row for it, a free tile and an owned one. -/
theorem test_hyps_matrix :
    let e : CellarEntry := ⟨0x8000, 0, some 0x8000, 0x30083, 3, none, false, false, 0, 0⟩
    let b : Bound := ⟨⟨0x8000, 3, false⟩, false⟩
    let p := paged (engA .me [0x8000, 0x1000])
    let s := ((p.storeAt (vatAt 0 0x8000) (natLe 4 0x30083 ++ List.replicate 60 0 ++ natLe 64 1)).setMe slot
      { names := [⟨2, 0x8000, false⟩], plane0 := some b, cat := [(0, row33)], owned := [(5, none)], depth := 0 }).modCore ⟨0, 0⟩
        (fun k => { k with cellar := [e] })
    (engS .me).engineRuns (rec1 .me) ∧ (s.stream s.agent).guardOn (rec1 .me) .always = true
      ∧ maps (s.mapVA ⟨0, 0⟩ .me 0 0x8000 64 true false) ((List.range 64).map (vatAt 0 0x8000 + ·)) = true
      ∧ (imgHead 0x30083).mapLen = 64 ∧ maps (s.mapVA ⟨0, 0⟩ .me 0 0x8040 64 true false) ((List.range 64).map (vatAt 0 0x8040 + ·)) = true
      ∧ imgMalformed (((List.range 64).map (vatAt 0 0x8000 + ·)).map s.rd) (((List.range 64).map (vatAt 0 0x8040 + ·)).map s.rd) = false
      ∧ (s.core ⟨0, 0⟩).cellar.find? (fun y => y.tag == 0x8000 && !y.failed) = some e
      ∧ (s.me slot).names.find? (fun z => z.name == 2) = some ⟨2, 0x8000, false⟩ ∧ s.tagFailed ⟨0, 0⟩ 0x8000 = false
      ∧ (s.me slot).names.find? (fun z => z.name == 7) = none ∧ 15 < s.tileCount slot ∧ s.tileBusy slot 15 = false ∧ s.passing slot 15 = false
      ∧ s.owned slot 15 = false ∧ s.owned slot 5 = true ∧ s.passing slot 5 = false ∧ catLegal row33 = true ∧ catLegal 0 = false
      ∧ (s.me slot).row 0 = some row33 ∧ (s.me slot).plane (s.me slot).active = some b ∧ b.plane.bfmt = (catRow row33).bfmt
      ∧ b.plane.kw = ((catRow row33).k == 256) ∧ (catRow row33).win = false ∧ (s.me slot).depth + 1 ≤ allotted.depth
      ∧ (match (catRow row33).check 0x1000 (0, 0) 128 with | .ok _ => true | .error _ => false) = true ∧ (s.core ⟨0, 0⟩).passes = [] :=
  ⟨test_engine_runs _, by decide +kernel⟩

/-- MatrixForms: an MCEL of a tag that the cellar lacks, with room, with none while another slot names what fills it, and of a slot whose own names
fill it. -/
theorem test_hyps_cellar :
    let e (tag lines : Nat) : CellarEntry := ⟨tag, 0, some tag, 0x30083, lines, some [1], false, false, 0, 0⟩
    let s (x : CtxId) (tags : List Nat) (lines : Nat) : State :=
      ((engS .me).setMe x { names := tags.map (fun t => ⟨t, t, false⟩) }).modCore ⟨0, 0⟩ (fun k => { k with cellar := tags.map (fun t => e t lines) })
    let own (v : State) : List CellarEntry := (v.core ⟨0, 0⟩).cellar.filter (fun y => !y.failed && v.pinners ⟨0, 0⟩ 0 (some 9) y.tag == [0])
    let full := s ⟨0, 0, 1⟩ [1] 1024
    let mine := s slot [1, 2, 3, 4, 5, 6, 7, 8] 3
    (full.core ⟨0, 0⟩).cellar.find? (fun y => y.tag == 0x8000 && !y.failed) = none ∧ cellarFits [] 3 = true ∧ own (engS .me) = []
      ∧ cellarFits (full.core ⟨0, 0⟩).cellar 3 = false ∧ own full = [] ∧ (∀ y ∈ (full.core ⟨0, 0⟩).cellar, full.pinners ⟨0, 0⟩ 4 none y.tag ≠ [])
      ∧ 8 ≤ (own mine).length := by
  decide +kernel

/-- A stream of the test's launch from die 0 to die 0 with one free and one filled slot of 512 bytes. -/
def stream1 : StreamSt := ⟨0, 0, 0, 0, 1, 1, 9, 2, 1, 1, 0, 0, [], [], []⟩

/-- CopyForms: operands of each kind of transfer: ranges of scratchpad, a window, a group, a stream's slots with and without room, a pail. -/
theorem test_hyps_transfers_of_engines :
    let w := windowed (engA .ce [2 ^ 63 + 0x1000, 2 ^ 63 + 0x2000, 64, 0x90000000])
    let s : State := { w with gallery := [stream1] }
    let e : State := { w with gallery := [{ stream1 with free := 0, filled := 0 }] }
    let g := (((engS .xe).setReg (groupReg 0 1) 0x80000000).setReg (groupReg 0 1 + 0x10) 0x1).setReg (groupReg 0 1 + 0x18) 0
    (engS .ce).engineRuns (rec1 .ce) ∧ s.cxRange slot true 0x1000 8 64 = .ok 0x1000 ∧ s.cxRange slot true 0x2000 8 64 = .ok 0x2000
      ∧ s.cxRange slot false 0x1000 8 64 = .ok 0x1000 ∧ 64 ≤ 2 ^ 24 ∧ 64 % 2 ^ 3 = 0 ∧ s.endpoint slot true 1 = some stream1
      ∧ s.endpoint slot false 1 = some stream1 ∧ s.stalled stream1 = false ∧ (e.endpoint slot true 1).map (fun z => z.mayClaim (e.whoIs slot)) = some false
      ∧ stream1.mayClaim (s.whoIs slot) = true ∧ stream1.mayPop (s.whoIs slot) = true ∧ (e.endpoint slot false 1).map (fun z => z.mayPop (e.whoIs slot)) = some false
      ∧ s.cxRange slot true 0x1000 512 512 = .ok 0x1000 ∧ 0x90000000 % 2 ^ 32 % 8 = 0 ∧ (0x90000000 - 0x80000000) / 0x08000000 = 2
      ∧ s.sendOk slot 2 0 64 = true ∧ s.windowOk slot 2 0 64 true false = true ∧ s.windowOk slot 2 0 8 true true = true
      ∧ g.groupOk 0 1 0 = true ∧ (g.members 0 1).all (fun m => decide (64 ≤ m.size)) = true ∧ (s.stream (slot.agent .ce)).transfers = []
      ∧ (pailS .xe).cxRange slot true 0x1000 4 512 = .ok 0x1000 ∧ pailSize ((pailS .xe).word (dieWord 0 3)) = 512
      ∧ 1 ≤ semCount ((pailS .xe).word (dieWord 0 0)) ∧ (pailS .xe).ecc = [] :=
  ⟨test_engine_runs _, by rfl, by rfl, by rfl, by decide +kernel, by decide +kernel, by decide +kernel, by decide +kernel, by decide +kernel,
    by decide +kernel, by decide +kernel, by decide +kernel, by decide +kernel, by rfl, by decide +kernel, by decide +kernel, by decide +kernel, by decide +kernel, by decide +kernel, by decide +kernel,
    by decide +kernel, by rfl, by rfl, by decide +kernel, by decide +kernel, by rfl⟩


/-- CommandsAndMarks: an idle engine with a record; a command at its last mark, and at a mark with another pass to come; a follow-on. -/
theorem test_hyps_commands_and_marks :
    let r := rec1 .ce
    let two : Rec := { r with bound := [2, 1, 1, 1, 1, 1] }
    let f : Rec := { r with fov := true, follow := 0x10000 }
    let idle := (scuS {}).setStream (slot.agent .ce) { queue := [r] }
    let at_ (q : Rec) (armed : Bool) : State := (scuS {}).setStream (slot.agent .ce) { queue := [q], active := true, atEnd := true, armed := armed }
    (idle.stream (slot.agent .ce)).queue.head? = some r ∧ idle.task slot = some placedTask ∧ placedTask.started = true ∧ placedTask.frozen = false
      ∧ (idle.stream (slot.agent .ce)).active = false ∧ idle.heldAtMark (slot.agent .ce) = false ∧ r.resume = some [0, 0, 0, 0, 0, 0]
      ∧ (at_ r false).settled (slot.agent .ce) = true ∧ isLast [0, 0, 0, 0, 0, 0] r.bound = true ∧ nestNext [0, 0, 0, 0, 0, 0] r.bound = none
      ∧ isLast [0, 0, 0, 0, 0, 0] two.bound = false ∧ nestNext [0, 0, 0, 0, 0, 0] two.bound = some [1, 0, 0, 0, 0, 0]
      ∧ ((at_ f true).stream (slot.agent .ce)).armed = true ∧ f.follow < 2 ^ 56 ∧ (((at_ f true).stream (slot.agent .me)).queue.length < 64)
      ∧ (match (at_ r false).applyAll (slot.agent .ce) [] with | .ok _ => true | .error _ => false) = true := by
  decide +kernel

/-- AgentCompletions: a move in flight, a stream that has a slot, a copy, a wait that is satisfied, a posted write. -/
theorem test_hyps_agent_completions :
    let t : Transfer := ⟨7, .cmov, 0x2000, 0x1000, true, true, 64, 0, 8, 0, (0, 0, 0), [], [], [], false, false, [], none, 4⟩
    let s := (engS .ce).modStream (slot.agent .ce) (fun x => { x with transfers := [t] })
    let w : State := { (engS .ce).modStream (slot.agent .ce) (fun x => { x with wait := .stream 1 }) with gallery := [stream1] }
    let y : Copy := ⟨3, 64, 0x2000, 0x1000, true, true, none⟩
    let c := scuS { copies := [y] }
    (s.stream (slot.agent .ce)).transfers.head? = some t ∧ s.spanMoving slot t.reads t.n = false ∧ s.spanMoving slot t.writes t.n = false
      ∧ maps (t.source s (slot.agent .ce)) ((List.range 64).map (scratchAt 0 0x1000 + ·)) = true
      ∧ maps (t.target s (slot.agent .ce)) ((List.range 64).map (scratchAt 0 0x2000 + ·)) = true
      ∧ (w.stream (slot.agent .ce)).wait = .stream 1 ∧ w.endpoint slot true 1 = some stream1 ∧ stream1.mayClaim (w.whoIs slot) = true
      ∧ (scuS {}).linkStopped 0 ⟨some ⟨0, 0⟩, posted1.tpkg, posted1.tdie⟩ = false
      ∧ (c.ctx slot).copies.find? (fun z => z.reg == 3 && z.fault.isNone) = some y ∧ c.copyParked slot 3 = false
      ∧ maps (c.copySide slot true 0x1000 64 false) ((List.range 64).map (scratchAt 0 0x1000 + ·)) = true
      ∧ maps (c.copySide slot true 0x2000 64 true) ((List.range 64).map (scratchAt 0 0x2000 + ·)) = true
      ∧ (((scuS {}).modCore ⟨0, 0⟩ (fun k => { k with posted := [posted1] })).core ⟨0, 0⟩).posted.find? (fun q => q.id == 1) = some posted1
      ∧ (∀ d ∈ (⟨0, 0⟩ : CoreId).slots, ((scuS {}).ve d).pend = [] ∧ ((scuS {}).stream (d.agent .xe)).transfers = []) := by
  decide +kernel

/-- AgentCompletions, FabricEvents: the way to a package that the ring is routed round is stopped. -/
theorem test_hyps_stopped :
    let s : State := { scuS {} with service := { left := 2, bypass := 2 } }
    s.linkStopped 0 ⟨some ⟨0, 0⟩, 1, 3⟩ = true := by
  intro s
  have h : s.skipped ⟨some ⟨0, 0⟩, 1, 3⟩ = true := by decide +kernel
  have g : s.leaves ⟨some ⟨0, 0⟩, 1, 3⟩ = true := by decide +kernel
  simp [State.linkStopped, h, g]

/-- AgentCompletions: a slot that stands blocked at a SEMWAIT whose count has come. -/
theorem test_hyps_vault_wait :
    let s := (((semS (mkSem 0 0 false 5) 5).setCtx slot { ctxG [0, 3, 5] with blocked := true }).storeAt (ispaceAt ⟨0, 0⟩ 0)
      (natLe 4 (encodeWord (.semwait .always 1 2))))
    s.nextOf s.agent = some (.semwait .always 1 2) ∧ (s.ctx slot).blocked = true ∧ s.affords ⟨0, 0⟩ 0 1 = true
      ∧ (s.core ⟨0, 0⟩).bucketHeld = [] ∧ s.heldBack false false = false ∧ s.failedWord s.agent [dieWord 0 3] = none := by
  decide +kernel

/-- A pass of slot 0 into tile 2 under a plane, ready or not. -/
def pass1 (ready : Bool) (image : List Byte) : Pass :=
  { id := 9, slot := 0, tile := 2, abase := 0x1000, strides := (0, 0), rows := 1, base := 127, row := row33, plane := ⟨0x8000, 3, false⟩, block := false,
    member := true, part := 0, cls := 0, deadline := 100, stack := 4, ready := ready, readyAt := 0, running := false, image := image,
    withdrawn := false, failed := false, epc := 4 }

/-- MatrixEvents: a fetched image, an expansion, an open stack at its deadline, a ready pass with its plane, a running one, an exchange. -/
theorem test_hyps_matrix_events :
    let e : CellarEntry := ⟨0x8000, 0, some 0x8000, 0x30083, 3, none, false, false, 0, 0⟩
    let q : Phys := ⟨⟨0x8000, 3, false⟩, [], false⟩
    let k (f : Core → Core) : State := (paged (scuS {})).modCore ⟨0, 0⟩ f
    let a := k (fun k => { k with cellar := [e] })
    let b := k (fun k => { k with cellar := [{ e with image := some [1] }], phys0 := some q })
    let c : State := { k (fun k => { k with passes := [pass1 false []] }) with cycle := 100 }
    let d := k (fun k => { k with passes := [pass1 true []], phys0 := some { q with done := true } })
    let f := k (fun k => { k with passes := [pass1 true [1]], exchanges := [(2, 3)] })
    (a.core ⟨0, 0⟩).entry 0x8000 = some e ∧ maps (a.mapVA ⟨0, 0⟩ .me 0 0x8000 192 true false) ((List.range 192).map (vatAt 0 0x8000 + ·)) = true
      ∧ (b.core ⟨0, 0⟩).phys0 = some q ∧ (b.core ⟨0, 0⟩).entry 0x8000 = some { e with image := some [1] }
      ∧ pass1 false [] ∈ (c.core ⟨0, 0⟩).passes ∧ (pass1 false []).open_ = true ∧ (pass1 false []).deadline ≤ c.unitCycles ⟨0, 0⟩ 2
      ∧ (d.core ⟨0, 0⟩).expanded (pass1 true []).plane = some { q with done := true }
      ∧ (d.core ⟨0, 0⟩).arrayLeft = 0 ∧ d.meDuty ⟨0, 0⟩ = true ∧ (d.core ⟨0, 0⟩).heldForSlot (pass1 true []) = false
      ∧ (d.core ⟨0, 0⟩).firstPass (d.core ⟨0, 0⟩).candidates = some (pass1 true []) ∧ d.affords ⟨0, 0⟩ 2 ((d.core ⟨0, 0⟩).passCost (pass1 true [])) = true
      ∧ (f.core ⟨0, 0⟩).passes.find? (fun x => x.id == 9) = some (pass1 true [1]) ∧ (pass1 true [1]).image ≠ [] ∧ f.ecc = []
      ∧ f.wf = true ∧ (f.core ⟨0, 0⟩).exchanges = [(2, 3)] := by
  decide +kernel


/-- The statements of where no write's order is open; VaLoadsAndStores: a turn that leaves a store late. BindingTables: a write of slot 1 that is bound to
the semaphore of handle 3, open, with no write late. -/
theorem test_hyps_order :
    let b : Task := { allotted with bindings := [⟨1, 0x3000, 0x40, .sem 3, false⟩] }
    let w : Write := { id := 1, by_ := some (slot.agent .scu), task := none, block := 2 ^ 57 + 0x3000 / 64, cells := [(scratchAt 0 0x3000, 0)] }
    let s : State := { (semS (mkSem 0 0 false 5) 5).setTask slot (some b) with order := { open_ := [w] } }
    let l : State := { scuS {} with leeway := { late := true } }
    (scuS {}).strict ∧ (engS .ve).strict ∧ l.leeway.late = true ∧ l.mayLinger [(vatAt 0 0x20008, 9)] = true ∧ l.heldBack false false = false
      ∧ s.order.late = [] ∧ s.task s.here = some b ∧ b.bindings.any (fun x => x.obj == .sem 3 && x.has w) = true ∧ s.heldBack false true = false
      ∧ semMode (s.word (dieWord 0 3)) = 0 ∧ s.handle s.here false 3 = .ok (dieWord 0 3)
      ∧ s.order.open_.reverse.find? (fun v => v.touches (scratchAt 0 0x3000)) = some w :=
  ⟨⟨rfl, rfl⟩, ⟨rfl, rfl⟩, rfl, by decide +kernel, by decide +kernel, rfl, by decide +kernel, by decide +kernel, by decide +kernel, by decide +kernel, by rfl, by decide +kernel⟩

/-- WakeResumes: a TPC under which a TRET would be illegal. -/
theorem test_hyps_wake_bad : tpcBad 0x4000 = true ∧ tpcBad 0x34000 = true := by decide +kernel

/-- A queue that runs at count 4 of its ring, whose turn it is. -/
def runQ (x : Queue) : State := { (State.reset.setQueue 7 x) with turnOf := some (7, 0) }

/-- PacketForms, QueueEvents: a running queue with and without calls and loops; queues that are off; counts at their bounds. -/
theorem test_hyps_queues :
    let x : Queue := { state := 1, head := 4, tail := 20, done := 4, point := ⟨true, 4, 0⟩ }
    let b : ExecPoint := ⟨true, 7, 0⟩
    let y : Queue := { x with point := ⟨false, 0x8000, 0x8100⟩, calls := [b], loops := [[(⟨false, 0x8000, 0x8100⟩, 1)], []] }
    let s := runQ x
    s.turnOf = some (7, 0) ∧ (s.queue 7).state = 1 ∧ (s.queue 7).wait = .no ∧ (s.queue 7).stopFor = none ∧ (s.queue 7).offPending = false
      ∧ (s.queue 7).skip = 0 ∧ (s.queue 7).calls.length < 4 ∧ (s.queue 7).calls = [] ∧ (s.queue 7).loops.headD [] = []
      ∧ (runQ y).queue 7 = y ∧ y.calls = [b] ∧ y.loops.headD [] = [(⟨false, 0x8000, 0x8100⟩, 1)] ∧ s.ecc = [] ∧ s.outstanding 7 = false
      ∧ semMode (s.word (pkgWord 5)) = 0 ∧ (match semAdd (s.word (pkgWord 5)) 3 with | .ok _ => true | .error _ => false) = true
      ∧ (0 : Int) ≤ semCount (s.word (pkgWord 5)) ∧ semCount (s.word (pkgWord 5)) < 1 ∧ s.duty.testBit 7 = false ∧ ((s.queue 8).state = 0)
      ∧ ((s.queue 8).head - (s.queue 8).done).toNat ≤ ((s.queue 8).tail - (s.queue 8).done).toNat ∧ (1024#32 - 0).toNat ≤ 1024
      ∧ s.duty.testBit 2 = false := by
  decide +kernel

/-- No queue of the tests waits for a word. -/
theorem test_hyps_no_waiter (x : Queue) (h : x.wait = .no) : ∀ p a n d g, ((runQ x).queue p).wait ≠ .sem a n d g := by
  intro p a n d g
  by_cases hp : p = 7
  · subst hp; show x.wait ≠ _; rw [h]; exact nofun
  · have : (runQ x).queue p = {} := by
      show Table.get {} [(7, x)] p = _
      simp [Table.get, Ne.symm hp]
    rw [this]; exact nofun

/-- QueueEvents: two runnable queues with a packet each, one of them urgent or not yet woken; a turn of 63 packets whose queue another one lends to. -/
theorem test_hyps_turns :
    let x : Queue := { state := 1, tail := 1, runnable := true, pass := 5, tickets := 7 }
    let two (y : Queue) : State := (((State.reset.setQueue 7 x).setQueue 9 y).storeAt (admAt (7 * 4096)) (natLe 4 0x00010006)).storeAt (admAt (9 * 4096)) (natLe 4 0x00010006)
    let b : Queue := { state := 1, wait := .sem (2 ^ 16 + 3) 1 false 7, tickets := 2 }
    let l : State := { two b with turnOf := some (7, 63) }
    (two x).turnOf = none ∧ (two x).duty.testBit 2 = false ∧ Table.keys (two { x with urgent := true }).queues = [7, 9]
      ∧ (∀ z ∈ [7, 9], ((two x).queue z).skip = 0 ∧ ((two x).queue z).wait = .no ∧ ((two x).queue z).state = 1 ∧ ((two x).fetchPacket z).isSome = true)
      ∧ ((two { x with runnable := false }).queue 9).runnable = false ∧ ((two x).queue 9).runnable = true
      ∧ l.turnOf = some (7, 63) ∧ (l.queue 7).stopFor = none ∧ (l.queue 7).offPending = false ∧ (l.queue 9).state = 1 ∧ (l.queue 9).runnable = false
      ∧ (l.queue 9).wait = .sem (2 ^ 16 + 3) 1 false 7 ∧ l.vaultBad.contains (pkgWord 3) = false ∧ semMode (l.word (pkgWord 3)) = 0
      ∧ semCount (l.word (pkgWord 3)) < 1 ∧ l.lends 9 = some 7 := by
  decide +kernel

/-- A launch of one node with one instance on die 0. -/
def launch1 : Launch :=
  { seq := 5, q := ⟨7, 1, 0, 1, 1, 4, 0x10000, 0, 0, 0, 4⟩, asid := 0, part := 0, dies := [0], cores := [1],
    body := ⟨[⟨[⟨1, 0, 0, false⟩], 1, 0, 0, 0, 0x20000, 3, 0, none⟩], [], [], [], [], [], []⟩, base := 0, words := 0, pbase := 0, pwords := 0,
    pending := [], done := [], failed := false, assisted := false }

/-- LaunchEvents: an offer to a live die, its answers, a launch to be dispatched, one to go, one to place, a task to start and to end. -/
theorem test_hyps_launches :
    let o : OfferSt := ⟨launch1.q, 0, 0, [0], [1], [(0, .none)], none⟩
    let s := live (paged { runQ { state := 1, offer := some o } with mode := .running })
    let ok : OfferSt := { o with answers := [(0, .accept)], body := some launch1.body }
    let go : State := { s with launches := [{ launch1 with pending := [0] }] }
    let i : Inst := ⟨5, 0, [0], [0], 0, 0, false, none, .ready⟩
    let pl : State := { (s.modDie 0 (fun d => { d with insts := [i] })) with launches := [launch1] }
    s.offered 0 = some (7, o) ∧ (s.queue 7).offer = some o ∧ (s.die 0).repairBusy = false ∧ (s.die 0).resetAt = none
      ∧ maps (s.mapReg 0 0 0x10000 256 false) ((List.range 256).map (vatAt 0 0x10000 + ·)) = true
      ∧ (∀ e ∈ ok.answers, e.2 = .accept) ∧ ok.body = some launch1.body ∧ s.findBase [0] launch1.body.dieWords = some 0 ∧ s.findPkg launch1.body.pkgWords = some 0
      ∧ go.launches.find? (fun m => m.pending.contains 0) = some { launch1 with pending := [0] } ∧ go.launchFailed 5 = false
      ∧ ({ launch1 with pending := [0] } : Launch).instsOn 0 ≠ [] ∧ (go.die 0).insts = []
      ∧ (pl.die 0).insts = [i] ∧ pl.launches = [launch1] ∧ launch1.body.nodes[0]? = some ⟨[⟨1, 0, 0, false⟩], 1, 0, 0, 0, 0x20000, 3, 0, none⟩
      ∧ pl.placeCore 0 launch1 ⟨[⟨1, 0, 0, false⟩], 1, 0, 0, 0, 0x20000, 3, 0, none⟩ i [] = some 0
      ∧ nextSlotPoint { placedTask with slotLevels := [(0, 2)] } (Vector.replicate 8 0) ≠ none
      ∧ (∀ d ∈ ({ launch1 with done := [0] } : Launch).dies, d ∈ ({ launch1 with done := [0] } : Launch).done) ∧ launch1.dies ≠ [] := by
  decide +kernel

/-- LaunchEvents: a task placed and not started whose image the core holds, and one that has parked. -/
theorem test_hyps_tasks :
    let t : Task := { placedTask with started := false }
    let p : Task := { placedTask with parked := true }
    let s := ((scuS {}).setTask slot (some t)).modCore ⟨0, 0⟩ (fun k => { k with images := [(t.image, true)] })
    s.task slot = some t ∧ t.started = false ∧ s.coreRuns ⟨0, 0⟩ = true ∧ (s.die 0).parked = [] ∧ t.loadFail = none
      ∧ (s.core ⟨0, 0⟩).loaded t.image = true ∧ ((scuS {}).setTask slot (some p)).task slot = some p ∧ p.parked = true ∧ p.slotLevels = [] := by
  decide +kernel


/-- A running package whose partition 0 holds die 0 under domain key 9, and which lends all of its first 128 MiB to any source; UALink station 2
stands for package 3 with that key. -/
def lent : State :=
  let s : State := live (({ State.reset with mode := .running }.setReg 0x4301000320 3).setReg 0x4301000328 9)
  ((((s.setReg 0x4301000000 0x100).setReg 0x4301000008 9).setReg 0x4300020000 0x00000000F8000000).setReg 0x4300020008 0x7FF).setReg 0x4300020020 0x0C000000F8000000

/-- InboundEvents: an access that is lent, one under another key; a control block that runs and is owned, one in ERROR, one that is stopped. -/
theorem test_hyps_inbound :
    let i : Icb := { slots := 4, head := 12, tail := 12, state := 0, owner := some 0, slsz := 6 }
    let s := (scuS {}).modDie 0 (fun d => { d with icbs := [(5, i), (6, { i with state := 1, reason := 2 })] })
    (lent.die 0).resetAt = none ∧ lent.sourceOf (.fabric 3) 9 = (3, 9) ∧ lent.sourceOf (.ualink 2) 0 = (3, 9) ∧ s.supervised = true
      ∧ InSrc.takes (.ualink 2) (.load 0x1000 256) = true ∧ InSrc.takes (.ualink 2) (.atomic 0x1000 8 0 1) = false
      ∧ InSrc.takes (.fabric 3) (.cas 0x1000 8 0 1) = true ∧ lent.admits 0 3 9 0x1000 8 true false = true ∧ lent.admits 0 3 9 0x1000 8 false true = true ∧ lent.admits 0 3 9 0x17FFF8 8 true true = true
      ∧ lent.keyReaches 0 8 = false ∧ lent.ecc = [] ∧ lent.keyReaches 0 9 = true ∧ lent.lends_ 0 3 (0x0C00000C + 64 * 63) 4 false false true = true
      ∧ s.task slot = some placedTask ∧ (s.die 0).icb 5 = i ∧ i.owner = some placedTask.launch ∧ (i.tail - i.head).toNat ≤ 2 ^ i.slots
      ∧ (28#32 - 12).toNat ≤ 2 ^ i.slots ∧ 2 ^ i.slots < (12#32 - 13).toNat ∧ ((s.die 0).icb 6).state = 1 ∧ ((s.die 0).icb 7).state = 2
      ∧ i.wellFormed = true ∧ ({ i with slots := 15 } : Icb).wellFormed = false := by
  decide +kernel

/-- FabricEvents: a request of a context under its tag, a bridge's window, a parked access, an invalidation, a partition without launches. -/
theorem test_hyps_fabric :
    let r : Req := { station := 0, tag := 17, gen := 3, at_ := 0, path := ⟨some ⟨0, 0⟩, 0, 3⟩, denied := false, owner := .scu slot, bounces := 0, retryAt := none }
    let b : Req := { r with bounces := 1, retryAt := some 512 }
    let m : Remote := ⟨0, 17, 3, 2, 0, none, false⟩
    let s : State := { (scuS { remote := some m }).setReg 0x4300000048 100 with reqs := [r], cycle := 240000 }
    let w : Combining := ⟨1, 1, 3, 0x1000, 8, 9, 0, [(0, true, 0, 0, 5)], none⟩
    let l : State := { s with reqs := [b], cycle := 480001 }
    let c : State := { State.reset with combining := [w], cycle := 64 }
    let e : ParkEntry := ⟨0x5000, 0, 0, false, .scu slot, some 200⟩
    let d := (scuS {}).modDie 0 (fun d => { d with parked := [e], inval := some (0, 0, 0, 0, 0) })
    s.reqs.find? (fun x => x.station == 0 && x.tag == 17 && x.gen == 3) = some r ∧ (s.ctx slot).remote = some m
      ∧ r.at_ + wfld (s.reg (0x4300000000 + 0 * 0x100000 + 0x48)) 0 32 * 2400 ≤ s.cycle ∧ r.path.tpkg = s.pkg
      ∧ ({ s with cycle := 239999 } : State).timedOut r = false ∧ r.denied = false ∧ s.mayAnswer r = true ∧ r.taken = false ∧ r.lost = false ∧ r.bridged = false ∧ r.retryAt = none ∧ r.bounces = 0
      ∧ l.reqs.find? (fun x => x.station == 0 && x.tag == 17) = some b ∧ b.retryAt = some 512 ∧ 512 ≤ l.cycle ∧ d.supervised = true
      ∧ (∀ y ∈ CoreId.slots ⟨0, 0⟩, (l.ve y).pend = [] ∧ (l.stream (y.agent .xe)).transfers = []) ∧ (∀ x ∈ s.reqs, x.station = 0 → x.tag = 17 → x.gen ≠ 4)
      ∧ b.at_ + 2 * (wfld (l.reg (0x4300000000 + 0 * 0x100000 + 0x48)) 0 32 * 2400) < l.cycle
      ∧ ¬(w.tpkg = c.pkg ∧ w.tdie < 12)
      ∧ c.combining.find? (fun x => x.id == 1) = some w ∧ w.openAt + 64 ≤ c.cycle ∧ c.freeTag 15 = some (0, 0)
      ∧ (d.die 0).parked = [e] ∧ e.index = some 200 ∧ (d.die 0).inval = some (0, 0, 0, 0, 0) ∧ (d.die 1).inval = none
      ∧ pteMalformed 0xF 4 = false ∧ wbit 0xF 0 = true ∧ wbit 0xF 1 = true ∧ State.reset.partActive 3 = false
      ∧ ({ State.reset with launches := [launch1] } : State).partActive 0 = true ∧ wfld 0x190 0 4 ≤ wfld 0x190 4 4
      ∧ (State.reset.setQueue 1023 { state := 1 }).ecc = [] ∧ ((State.reset.setQueue 1023 { state := 1 }).queue ((0x3FFFFF) / 4096)).state ≠ 0 ∧ (256 : Nat) ≤ 256 := by
  decide +kernel

/-- FabricEvents: a window for a die of the package that lends to any source. -/
theorem test_hyps_combined :
    let v : Combining := ⟨1, 0, 0, 0x1000, 8, 9, 0, [(0, true, 19, 0, 5)], none⟩
    let h : State := { lent with combining := [v], cycle := 64 }
    v.tpkg = h.pkg ∧ h.combining.find? (fun x => x.id == 1) = some v ∧ (h.die 0).resetAt = none ∧ h.ecc = [] ∧ (∀ x ∈ v.reqs, x.2.2.1 / 16 ≠ h.pkg) ∧ v.openAt + 64 ≤ h.cycle := by
  decide +kernel

/-- FabricEvents: that die lends to every source. -/
theorem test_hyps_lent (src : Nat) : lent.admits 0 src 9#64 0x1000 8 true true = true := by
  have h : lent.lending 0 = [⟨true, true, true, true, 0, 0, 0x8000000⟩, ⟨true, true, true, true, 0, 0x0C000000, 65536⟩] := by rfl
  have k : lent.keyReaches 0 9#64 = true := by decide +kernel
  have z : sLoc 0x1000 8 = .scratch := by decide +kernel
  simp [State.admits, State.lends_, h, k, z]

/-- ResetEvents: a watchdog at its limit, an alarm due, a core and a die under reset, a task to pre-empt, to stop and to abort. -/
theorem test_hyps_resets :
    let s := (scuS { blocked := true, wd := 0x08000000 })
    let k := (engS .ve).modCore ⟨0, 0⟩ (fun k => { k with wdt := .replicate 5 2, wd := .replicate 4 2 })
    let p := (engS .ve).modCore ⟨0, 0⟩ (fun k => { k with pendReset := [(1, 0, false)] })
    let c : State := { State.reset with mode := .running, cur := { tqSet := true } }
    let r : State := { State.reset.modCore ⟨0, 0⟩ (fun k => { k with crst := some 0 }) with cycle := 2400000 }
    let d : State := { State.reset.modDie 0 (fun y => { y with resetAt := some 0 }) with cycle := 24000000 }
    let l : State := { (s.setReg 0x4301000000 0x100).modLink 4 (fun y => { y with parts := 1 }) with cur := { tqSet := true } }
    s.coreRuns ⟨0, 0⟩ = true ∧ (s.ctx slot).blocked = true
      ∧ (s.core ⟨0, 0⟩).wdt.getD 0 0 ≤ (s.ctx slot).wd ∧ (k.core ⟨0, 0⟩).wdt.getD 1 0 ≤ (k.core ⟨0, 0⟩).wd.getD 0 0 ∧ (k.core ⟨0, 0⟩).pendReset = []
      ∧ (k.core ⟨0, 0⟩).alarms = [] ∧ (p.core ⟨0, 0⟩).pendReset = [(1, 0, false)] ∧ p.resetWaits ⟨0, 0⟩ .ve = false
      ∧ (p.core ⟨0, 0⟩).wdReset.getD 0 false = false ∧ (p.core ⟨0, 0⟩).rolling.getD 0 false = false ∧ p.allAtMark ⟨0, 0⟩ .ve = false
      ∧ c.cur.tqSet = true ∧ c.cur.tqrd = c.cur.tqwr ∧ c.supervised = true ∧ c.monitored = true ∧ ({ c with cur := { c.cur with takeover := true } } : State).monitored = true ∧ (c.core ⟨0, 0⟩).crst = none
      ∧ (∀ x ∈ (⟨0, 0⟩ : CoreId).slots, c.task x = none) ∧ (r.core ⟨0, 0⟩).crst = some 0 ∧ (r.die 0).resetAt = none ∧ 0 + 2400000 ≤ r.cycle
      ∧ (d.die 0).resetAt = some 0 ∧ 0 + 24000000 ≤ d.cycle ∧ placedTask.started = true ∧ placedTask.preempting = false
      ∧ s.supervised = true ∧ k.cycle < (k.core ⟨0, 0⟩).rollAt.getD 0 0 + k.rollPeriod ⟨0, 0⟩ .ve
      ∧ (k.core ⟨0, 0⟩).rollAt.getD 0 0 + k.rollPeriod ⟨0, 0⟩ .ve ≤ ({ k with cycle := 240000000000 } : State).cycle
      ∧ s.hasCore ⟨0, 0⟩ = true ∧ (∀ x ∈ engineKinds, s.behindWalk (slot.agent x) = false) ∧ (l.link 4).failed = false ∧ (l.link 4).parts % 16 = 2 ^ 0
      ∧ slot.die ∈ l.partDies 0 ∧ l.task slot = some placedTask ∧ placedTask.frozen = false ∧ Table.keys l.tasks = [slot] ∧ l.ecc = [] ∧ l.cur.tqSet = true ∧ (s.link 0).failed = false ∧ (s.link 0).parts % 16 = 0 ∧ (s.core ⟨0, 0⟩).docBusy = false
      ∧ (∀ x ∈ engineKinds, (s.stream (slot.agent x)).active = false) := by
  decide +kernel

/-- PowerEvents: the ladder at the end of each of its times, and before it; a sample out of range; a die hotter than its throttle point. -/
theorem test_hyps_power :
    let p : Power := { downAt := some 0, overSince := some 960000, depth := 6 }
    let s : State := { State.reset with power := p, cycle := 1200000 }
    let u : State := { State.reset with power := { underSince := some 0, depth := 1 }, cycle := 240000 }
    let i : State := { State.reset with cycle := 240000 }
    let h : State := { State.reset with sensors := [((0, 0), ({ used := 16 * 110 } : Sensor))].map (fun e => (e.1.1 * 16 + e.1.2, e.2)), cycle := 2400000 }
    s.power.downAt = some 0 ∧ 0 + 1200000 ≤ s.cycle ∧ 960000 + 240000 ≤ s.cycle ∧ s.power.lastRaise + 120000 ≤ s.cycle ∧ s.power.depth < 7
      ∧ u.power.underSince = some 0 ∧ u.power.assisted = false ∧ 0 + 240000 ≤ u.cycle ∧ u.power.lastFall + 240000 ≤ u.cycle ∧ u.cores = []
      ∧ State.reset.duty.testBit 4 = false ∧ State.reset.service.scal = [] ∧ (-161 : Int) < -160 ∧ degrees 105 ≤ h.dieTemp 0
      ∧ h.dieTemp 0 < degrees 120 ∧ (h.die 0).overTemp + 2400000 ≤ h.cycle ∧ h.dieTemp 1 < degrees 105 - degrees 5 ∧ State.reset.mode ≠ .off
      ∧ State.reset.cycle < State.reset.power.sampled.getD 0 0 + 240000 ∧ i.power.sampled.getD 0 0 + 240000 ≤ i.cycle ∧ 0 < u.power.depth
      ∧ u.assistedPower = false ∧ (scuS {}).supervised = true ∧ ((scuS {}).core ⟨0, 0⟩).bucketNew = [] ∧ State.reset.cur.takeover = false
      ∧ ({ State.reset with duty := 16 } : State).duty.testBit 4 = true := by
  decide +kernel

/-- CuratorEvents: a supervisor that is active, one whose refresh is 2 ms old, a takeover that may end, a load of a docent's image, a boot that
the input and the charge allow. -/
theorem test_hyps_curator :
    let s : State := { State.reset with mode := .running }
    let b : ColdBoot := ⟨true, 12000, 7⟩
    let tables := s.service.tables
    let t : State := { s with cur := { takeover := true, pairs := #v[.held, .standby, .service, .service] } }
    let j : State := { s with cur := { swapAsked := true } }
    let d : State := { s.setCtx ⟨0, 0, 4⟩ { park := true } with service := { s.service with docLoading := true } }
    let x : State := { s.modCore ⟨0, 0⟩ (fun k => { k with newTables := some (tables, 1, []) }) with service := d.service }
    x.service.docLoading = true ∧ (x.core x.service.docTarget).newTables = some (tables, 1, []) ∧ (d.core d.service.docTarget).newTables = none
      ∧ s.cur.takeover = false ∧ s.mode = .running ∧ s.cur.held = [] ∧ (0 + 2 ^ 32 - s.cur.tqrd) % 2 ^ 32 ≤ (s.cur.tqwr + 2 ^ 32 - s.cur.tqrd) % 2 ^ 32
      ∧ s.cycle < s.cur.refreshed + 4800000 ∧ ({ s with cycle := 4800000 } : State).cur.refreshed + 4800000 ≤ 4800000
      ∧ s.cur.pairs = #v[.active, .standby, .service, .service] ∧ s.cur.swapAsked = false ∧ j.cur.swapAsked = true ∧ s.cur.journal.length < 16384
      ∧ t.cur.takeover = true ∧ t.cur.pkgReset = false ∧ t.cur.pairs = #v[.held, .standby, .service, .service] ∧ t.cur.held = []
      ∧ (∀ e ∈ t.cur.copy, e.1 = 0x4301000290)
      ∧ ({ t with cur := { t.cur with copy := [(0x4300000048, 10)] } } : State).cur.copy = [(0x4300000048, 10)] ∧ j.cur.pairs = s.cur.pairs
      ∧ b.inputGood = true ∧ 12000 ≤ b.charge ∧ ({ b with charge := 11999 } : ColdBoot).charge < 12000
      ∧ s.supervised = true ∧ s.monitored = true
      ∧ (#v[Machine.PairSt.active, .standby, .stopped, .service]).getD 2 .stopped = .stopped ∧ wbit 0xFD 1 = false
      ∧ s.cur.pairs.getD 3 .stopped = .service ∧ s.service.docLoading = false ∧ d.service.docLoading = true
      ∧ (d.ctx (d.service.docTarget.ctx 4)).park = true ∧ wbit 0x2C01 0 = true ∧ wfld 0x2C01 10 4 < 12
      ∧ (s.core s.service.docTarget).docHeld = [] ∧ s.ecc = [] ∧ (s.die 11).repairBusy = false ∧ (10000 : Nat) < 2 ^ 64 := by
  decide +kernel

/-- A key, a message and its signature on brainpoolP384r1 with SHA-384, made with OpenSSL. -/
def signKey : Nat × Nat :=
  (0x70200125408f066fe5d665aaac1f52d730c133597c233d7eb1b21c1668956b814f5984f96f26aebb882b6e866417a399,
   0x706c2a292083599643c4652d12c1e682e5ad618d22efecdb95f8d5eb32a3321f608cc3d42338d19c79eed9d8b9c94495)
def signed_ : List Byte := [104, 101, 108, 108, 111, 32, 105, 98, 115, 97, 110]
def signature : Nat × Nat :=
  (0x64BFC51FFB1908D01182D65F3233A22F62346D35E78AED6726769D7DB60DEE9B76802DF5DFBC0A7D8314A84CD6A6D7F6,
   0x33690F2D0CC9A7CC421B894AC6DB0371A69F7FADEB1A9BF3B288CF8AE5C879102A02179A559BD1D9A61721FFCE6DA04F)

/-- 18 R388: the signature verifies, and another does not. -/
theorem test_ecdsa :
    ecdsaVerify signKey signed_ signature.1 signature.2 = true ∧ ecdsaVerify signKey signed_ signature.1 (signature.2 + 1) = false := by
  decide +kernel

/-- The bytes of a key and of a signature. -/
def pairBytes (p : Nat × Nat) : List Byte := beBytes 48 p.1 ++ beBytes 48 p.2

/-- The image that the tests' flash holds five times. -/
def bootImage1 : ImageRef := { at_ := 0, len := 11, ver := 7, sig := 11 }

/-- A flash in which the five images are the signed message, whose key is the root key and the image key, under a fused version of the docent firmware. -/
def bootS (fused : Nat) : State :=
  let cells := (cellsAt (flashAt 0) (signed_ ++ pairBytes signature ++ pairBytes signKey)).filter (fun c => c.2 != 0)
  { State.reset with mem := cells, service := { State.reset.service with flash := ⟨107, 107, .replicate 5 bootImage1⟩, rootHash := sha384 (pairBytes signKey), fused := #v[0, 0, 0, fused, 0] } }

/-- CuratorEvents: every image of the chain verifies. -/
theorem test_hyps_boot : ∀ i ∈ [0, 1, 2, 3, 4], (bootS 0).chainAccepts i = true := by
  have k : (bootS 0).rootKey = signKey := by decide +kernel
  have m : (bootS 0).manifestKey = signKey := by decide +kernel
  have b : (bootS 0).imageBytes bootImage1 = signed_ := by decide +kernel
  have r : (bootS 0).number48 (fun i => flashAt (bootImage1.sig + i)) = signature.1 := by decide +kernel
  have s : (bootS 0).number48 (fun i => flashAt (bootImage1.sig + (48 + i))) = signature.2 := by decide +kernel
  have h : sha384 ((List.range 96).map (fun j => (bootS 0).rd (flashAt ((bootS 0).service.flash.root + j)))) = (bootS 0).service.rootHash := by decide +kernel
  have v : (bootS 0).imageVersion bootImage1 = 0x6E617362 := by decide +kernel
  have a : ∀ n ∈ [0, 1, 2, 3, 4], (bootS 0).accepts signKey n bootImage1 = true := by
    intro n hn
    have f : (bootS 0).service.fused.getD n 0 = 0 := by revert n; decide +kernel
    simp only [State.accepts, v, f, b]
    simp [show bootImage1.flash = true from rfl, show bootImage1.ver + 4 ≤ bootImage1.len by decide, r, s, test_ecdsa.1]
  have x : ∀ n ∈ [0, 1, 2, 3, 4], (bootS 0).bootImage n = bootImage1 := by decide +kernel
  intro i hi
  unfold State.chainAccepts
  rw [k, m, x i hi, x 0 (by simp), h, a i hi, a 0 (by simp)]
  simp

/-- CuratorEvents: docent firmware of a version below the fused one; where the images stand. -/
theorem test_hyps_boot_version : (bootS 0x6E617363).chainAccepts 3 = false ∧ (bootS 0).ecc = []
      ∧ ∀ i, i < 5 → ((bootS 0).service.flash.images.getD i {}).flash = true ∧ ((bootS 0).service.flash.images.getD i {}).len ≤ 2 ^ 40 := by
  decide +kernel

/-- CuratorEvents: a live update of a docent and one of tables that pair D has verified, and a stage of the bring-up. -/
theorem test_hyps_update :
    let read (s : State) (n : Nat) : List Byte := (List.range n).map (fun i => s.rd (2 ^ 51 + (64 + i) % 0x300000))
    let r : State := { State.reset with mode := .running }
    let s (k : Nat) : State := { r with service := { r.service with verified := [⟨k, 64, 2, sha384 (read r 2)⟩], stage := 4 } }
    (s 3).service.verified = [⟨3, 64, 2, sha384 (read (s 3) 2)⟩] ∧ (s 4).service.verified = [⟨4, 64, 2, sha384 (read (s 4) 2)⟩]
      ∧ (s 3).supervised = true ∧ (s 3).service.docLoading = false ∧ (BitVec.ofNat 64 (2 ^ 38 + 1)).toNat / 2 ^ 38 * 64 = 64
      ∧ wbit (BitVec.ofNat 64 (2 ^ 38 + 1)) 0 = true ∧ (s 3).mode = .running ∧ (s 3).service.stage + 1 = 5
      ∧ ((s 3).takeCurator (.stage (.selfTest 7 6 []))).service.stage = 5 ∧ ((s 3).takeCurator (.stage .queues)) = s 3 := by
  decide +kernel

/-- CuratorEvents: a core that the supervisor returns to service, and an instance of a launch offered before. -/
theorem test_hyps_live_mask :
    let i : Inst := ⟨5, 0, [0], [0], 0, 0, false, some 0, .ready⟩
    let s : State := { State.reset with mode := .running, launchSeq := 6 }
    s.supervised = true ∧ (4 : Nat).testBit 2 = true ∧ (s.service.livecore.getD 0 0).testBit 2 = false ∧ i.set ≠ none := by
  decide +kernel

/-- StepRunsDecoded, StepKeepsForm: an uncorrectable word at an SCU's program counter, and a turn of the Curator. -/
theorem test_hyps_bad_fetch :
    let s : State := { (scuS {}).placeScu 0xF0900011 with ecc := [ispaceAt ⟨0, 0⟩ 0] }
    let c : State := { scuS {} with agenda := [⟨3, .curator .eraseSlot, {}⟩] }
    s.fetchBad (slot.agent .scu) = some 0 ∧ ((scuS {}).placeScu 0xF0900011).fetchBad (slot.agent .scu) = none ∧ (∀ w ∈ s.ecc, w % 8 = 0)
      ∧ (c.cut (c.cycle + 3)).isNone = true := by
  decide +kernel

/-- EncodingRoundTrip, StepRunsDecoded, StepKeepsForm: an instruction at the bounds of its fields; a slot at a word, with its turn, and the
machine with nothing due before it; an engine's word; a packet; an event on the agenda; a churn deadline that is due. -/
theorem test_hyps_step :
    let s : State := { (scuS {}).placeScu 0xF0900011 with turn := .agent (slot.agent .scu) }
    let at_ := s.freeCycle (slot.agent .scu) (s.cycle + 1)
    let u : State := { s.elapse (at_ - s.cycle) with agent := slot.agent .scu }
    let e : State := { State.reset.placeEngine .ve 0x28A30E83 false with mode := .running, turn := .agent (slot.agent .ve) }
    let w : State := { e.elapse (e.freeCycle (slot.agent .ve) (e.cycle + 1) - e.cycle) with agent := slot.agent .ve }
    let p : State := { State.reset.placePacket 0x00010006 with mode := .running, turn := .admissions }
    let v : State := { (scuS {}) with agenda := [⟨3, .event (.pstepRequest 2), {}⟩] }
    let d : State := s.modCore ⟨0, 0⟩ (fun k => { k with passes := [pass1 false []] })
    (Instr.qwait 1 (2 ^ 32 - 1) (2 ^ 32 - 1) 1023).wf = true ∧ s.agenda = [] ∧ AgentId.exists_ (slot.agent .scu) = true
      ∧ (s.cut at_).isNone = true ∧ (u.ctx slot).yielded = false ∧ (u.scuBoundary (slot.agent .scu)).scuReady slot = true ∧ (u.ctx slot).pc < 16383
      ∧ u.fetchHalf slot 0 % 2 = 1 ∧ u.fetchHalf slot 0 + 65536 * u.fetchHalf slot 1 = 0xF0900011 ∧ w.engineReady (slot.agent .ve) = true
      ∧ (e.cut (e.freeCycle (slot.agent .ve) (e.cycle + 1))).isNone = true ∧ (w.stream (slot.agent .ve)).active = true
      ∧ (w.stream (slot.agent .ve)).inBody = true ∧ (w.stream (slot.agent .ve)).atEnd = false
      ∧ w.ispaceHalf ⟨0, 0⟩ 2 + 65536 * w.ispaceHalf ⟨0, 0⟩ 3 = 0x28A30E83
      ∧ p.agenda = [] ∧ (p.cut (p.cycle + 1)).isNone = true ∧ p.turnOf = some (0, 0) ∧ p.fetchPacket 0 = some .qlend
      ∧ (v.cut (v.cycle + 3)).isNone = true ∧ Instr.coded (.pstepRequest 2) = false ∧ Instr.turnOf (.pstepRequest 2) = none
      ∧ (d.cut 200).isSome = true ∧ s.wf = true := by
  decide +kernel

/-! ### Single steps, with the manual's examples and hand calculation -/

/-- Register `n` of the running context after an instruction. -/
def regAfter (i : Instr) (s : State) (n : Nat) : Option Word :=
  match exec i s with
  | .next t => some ((t.ctx s.here).reg n)
  | _ => none

/-- The running context after an instruction. -/
def ctxAfter (i : Instr) (s : State) : Option Ctx :=
  match exec i s with
  | .next t => some (t.ctx s.here)
  | _ => none

/-- The state after an instruction, or the state before it. -/
def after (i : Instr) (s : State) : State :=
  match exec i s with
  | .next t => t
  | _ => s

/-- The example of 06 R138. -/
theorem test_divide :
    regAfter (.div .always 3 1 2) (scuS (ctxG [0, -7, 2])) 3 = some (-3) ∧ regAfter (.rem .always 3 1 2) (scuS (ctxG [0, -7, 2])) 3 = some (-1)
      ∧ regAfter (.mulh .always 3 1 2) (scuS (ctxG [0, 0x8000000000000000, 2])) 3 = some (BitVec.allOnes 64)
      ∧ regAfter (.mulhn .always 3 1 2) (scuS (ctxG [0, 0x8000000000000000, 2])) 3 = some 1
      ∧ regAfter (.remn .always 3 1 2) (scuS (ctxG [0, 5, 0])) 3 = some 5 := by decide +kernel

/-- 06 R129, R134: an add wraps; a source may be the destination; g0 stays 0; 06 R136: an arithmetic shift copies the sign. -/
theorem test_alu_corners :
    regAfter (.add .always 1 1 1) (scuS (ctxG [0, 0x8000000000000001])) 1 = some 2 ∧ regAfter (.add .always 0 1 1) (scuS (ctxG [0, 5])) 0 = some 0
      ∧ regAfter (.shai .always 2 1 63) (scuS (ctxG [0, 0x8000000000000000])) 2 = some (BitVec.allOnes 64)
      ∧ regAfter (.shl .always 2 1 1) (scuS (ctxG [0, 64])) 2 = some 64 ∧ regAfter (.clz .always 2 1) (scuS {}) 2 = some 64
      ∧ regAfter (.lis .always 1 0x7FFF) (scuS (ctxG [0, 1])) 1 = some 0xFFFF := by decide +kernel

/-- 06 R139-R140: a compare of kp 7 writes k14 only; KXOR with k15 inverts. -/
theorem test_conditions :
    (ctxAfter (.cmpi .always 7 1 (1024 - 1) 0) (scuS (ctxG [0, -1]))).map (fun c => (c.cond 14, c.cond 15)) = some (true, true)
      ∧ (ctxAfter (.kxor .always 3 3 15) (scuS {})).map (fun c => c.cond 3) = some true
      ∧ (ctxAfter (.cmpin .always 1 1 1023 2) (scuS (ctxG [0, 0x400]))).map (fun c => (c.cond 2, c.cond 3)) = some (false, true) := by decide +kernel

/-- 06 R143: XFERL at index 10 with a 16-bit instruction and a 32-bit one after it writes 15, the index past the second delay slot. -/
theorem test_xferl :
    regAfter (.xferl .always 1 31) ((scuS { pc := 10 }).storeAt (ispaceAt ⟨0, 0⟩ 24) (natLe 2 0x001A ++ natLe 4 0xF00000FF)) 31 = some 15 := by
  decide +kernel

/-- 06 R146: LD.B extends the sign, LDN.B zeros; SST.D of a register and SLD.D of it. -/
theorem test_loads :
    let s := (scuS (ctxG [0, 0x3000, 0x1122334455667788])).storeAt (scratchAt 0 0x3000) [0x80]
    regAfter (.sld .always 3 1 0 0 0 0) s 3 = some 0xFFFFFFFFFFFFFF80 ∧ regAfter (.sldn .always 3 1 0 0 0 0) s 3 = some 0x80
      ∧ regAfter (.sld .always 3 1 31 3 0 0) (after (.sst .always 2 1 31 3 0 0) s) 3 = some 0x1122334455667788
      ∧ (after (.sst .always 2 1 31 3 0 0) s).rd (scratchAt 0 0x2FF8) = 0x88 := by decide +kernel

/-- 06 R132, 13 R281, R280: a misaligned load traps with cause 0x03 into the docent, whose DD bit is 1 after reset. -/
theorem test_misaligned :
    let t := after (.sld .always 3 1 0 3 0 0) (scuS (ctxG [0, 0x3001]))
    (t.ctx slot).tcause = 3 ∧ (t.ctx slot).tval = 0x3001 ∧ (t.ctx slot).pc = 0 ∧ (t.ctx ⟨0, 0, 4⟩).depth = 1 ∧ (t.ctx ⟨0, 0, 4⟩).tcause = 3
      ∧ (t.task slot).map (fun x => x.frozen) = some true := by decide +kernel

/-- 06 R148: AMO ADD.W returns the old word zero-extended and leaves the sum's low 32 bits. -/
theorem test_amo :
    let s := (scuS (ctxG [0, 0x3000, 2])).storeAt (scratchAt 0 0x3000) (natLe 8 0xFFFFFFFFFFFFFFFF)
    regAfter (.samo .always 3 1 2 0 0 0) s 3 = some 0xFFFFFFFF ∧ (after (.samo .always 3 1 2 0 0 0) s).rdNat (scratchAt 0 0x3000) 8 = 0xFFFFFFFF00000001 := by
  decide +kernel

/-- An open write of 7 over 0 at a byte of scratchpad, by slot 1, and what holds it; the reader misses as many writes as it may. -/
def openS (hs : List Holder) : State :=
  let w : Write := { id := 1, by_ := some (CtxId.agent ⟨0, 0, 1⟩ .scu), task := none, block := 0, cells := [(scratchAt 0 0x3000, 0)], holders := hs }
  { (scuS (ctxG [0, 0x3000])).storeAt (scratchAt 0 0x3000) [7] with order := { open_ := [w] }, leeway := { misses := [1] } }

/-- 04 R89, R98: a reader may miss a write of another slot that nothing has published to it, and must observe one that it has acquired. -/
theorem test_misses :
    regAfter (.sldn .always 3 1 0 0 0 0) (openS []) 3 = some 0 ∧ regAfter (.sldn .always 3 1 0 0 0 0) (openS [.agent (slot.agent .scu)]) 3 = some 7
      ∧ (openS [.agent (slot.agent .scu)]).here = slot := by decide +kernel

/-- 04 R81, R83: a weak store may be performed later, its own slot reads it at once, and a FENCE.ALL.CORE performs it. -/
theorem test_late :
    let s : State := { scuS (ctxG [0, 0x3000, 9]) with leeway := { late := true } }
    let t := after (.sst .always 2 1 0 0 0 0) s
    let a := scratchAt 0 0x3000
    t.rd a = 0 ∧ regAfter (.sldn .always 3 1 0 0 0 0) t 3 = some 9 ∧ (after (.fenceAllCore .always) t).rd a = 9
      ∧ s.mayLinger [(a, 9)] = true := by decide +kernel

/-- RV64 (13 R274): ADDI x1, x0, 5 and SLLI x2, x1, 3 on pair A, by their standard encodings. -/
theorem test_hart :
    let h : Hart := { pc := BitVec.ofNat 64 (supAt 0) }
    let s : State := { State.reset.storeAt (supAt 0) (natLe 4 0x00500093 ++ natLe 4 0x00309113) with mode := .running }
    let t := ({ s with cur := { s.cur with harts := .replicate 4 h } } : State).takeCurator (.hart 0)
    let u := t.takeCurator (.hart 0)
    ((t.cur.harts.getD 0 {}).x.getD 1 0, (u.cur.harts.getD 0 {}).x.getD 2 0, (u.cur.harts.getD 0 {}).pc) = (5, 40, BitVec.ofNat 64 (supAt 8)) := by
  decide +kernel

/-- 03 R65: the last arrival at a byte barrier flips PHASE and clears COUNT. -/
theorem test_barrier :
    (after (.semadd .always 1 2) (semS (mkSem 3 1 false 1) 2)).word (dieWord 0 3) = mkSem 3 1 true 0 := by decide +kernel

/-- 13 R289: the TPC of the example stands for PC 40 in the first delay slot of a transfer taken to 100. -/
theorem test_tpc :
    (({} : Ctx).resumeAt 0x0192C028).pc = 40 ∧ (({} : Ctx).resumeAt 0x0192C028).xfer = some ⟨100, true, 2⟩
      ∧ ({ pc := 40, xfer := some ⟨100, true, 2⟩ } : Ctx).resumePoint = 0x0192C028 := by decide +kernel

/-- 17 R371-R372: the level granted is the least request, with a disabled source counting as 7. -/
theorem test_levels :
    (after (.pstepRequest 3) State.reset).power.level = 3 ∧ (after (.fwreqWrite 2) (after (.pstepRequest 3) State.reset)).power.level = 2
      ∧ (after (.pstepRequest 3) { State.reset with power := { pinen := false } }).power.level = 7 := by decide +kernel

/-- 14 R295, R297, R300: a QNOP of 3 words moves HEAD past them; a QRET outside a call is error 0x05. -/
theorem test_packets_run :
    ((after (.qnop 3) (runQ { state := 1, head := 4, tail := 20, point := ⟨true, 4, 0⟩ })).queue 7).head = 7
      ∧ ((after .qret (runQ { state := 1, head := 4, tail := 20, point := ⟨true, 4, 0⟩ })).queue 7).reason = 5 := by decide +kernel

/-- 02 R49: VTANH of a subnormal, FTZ clear, is a zero of its sign with UF. -/
theorem test_tanh_subnormal :
    special 7 fp32 false (fp32.decode 0x007FFFFF) = (0, flagUF) ∧ special 7 fp32 false (fp32.decode 0x807FFFFF) = (0x80000000, flagUF) := by
  decide +kernel

/-- FIPS 197: the product of 4.2, the substitution of 5.1.1, and MixColumns of the first column of round 1 in appendix B. -/
theorem test_aes_steps :
    gfMul 0x57 0x83 = 0xC1 ∧ subByte 0x53 = 0xED ∧ subByte 0 = 0x63
      ∧ (mixColumns ([0xD4, 0xBF, 0x5D, 0x30] ++ List.replicate 12 0)).take 4 = [0x04, 0x66, 0x81, 0xE5] := by decide +kernel

/-- 12 R266: a stack whose deadline is ME cycle 100 is ready at it, however late the next turn comes. -/
theorem test_deadline :
    let s := (scuS {}).modCore ⟨0, 0⟩ (fun k => { k with passes := [pass1 false []] })
    (match step { s with agenda := [⟨700, .event (.pstepRequest 2), {}⟩] } with
      | .next t => (t.cycle, (t.core ⟨0, 0⟩).passes.map (fun p => (p.ready, p.readyAt)), t.agenda.map (fun x => x.dt))
      | _ => (0, [], [])) = (100, [(true, 100)], [600]) := by decide +kernel

/-- 03 R64: SEMGET of a word with MODE 7 traps with cause 0x09. -/
theorem test_semget_mode :
    ((after (.semget .always 2 1) (semS (mkSem 0 7 false 0) 0)).ctx slot).tcause = 9 := by decide +kernel

/-- 05 R127: the step after reset of a placed instruction runs it. -/
theorem test_placed :
    (match step (State.reset.withFetchWord 32 0xF0900011) with | .next t => some ((t.ctx placedCtx).reg 2, (t.ctx placedCtx).pc) | _ => none)
      = some (0x2000, 2) := by decide +kernel

end Sys2Proof.Tests
end

/-! ### The frame of an SCU instruction, for any update of its context -/

namespace Sys2Proof.Machine

theorem State.runs.mono {s : State} {gd : Guard} {touch touch' : List Nat} (h : s.runs gd touch) (hsub : touch' ⊆ touch) :
    s.runs gd touch' := by
  obtain ⟨hg, hc, hu⟩ := h
  exact ⟨hg, fun x hx hr hm => hc x hx hr (hsub hm), fun r hr hm => hu r hr (hsub hm)⟩

/-- An instruction whose body only updates its own context completes with the updated context and changes nothing else. -/
theorem scu_modCtx_spec (s : State) (gd : Guard) (touch : List Nat) (size : Nat) (f : Ctx → Ctx) (h : s.runs gd touch) :
    ∃ t, s.scu gd touch size (fun u => .done (u.modCtx u.here f)) = .next t
      ∧ t.ctx s.here = (f (s.ctx s.here)).complete size ∧ s.ScuOnly t := by
  refine ⟨_, by rw [scu_runs _ _ _ _ _ h, settle_done], by simp, ?_, fun a => by simp, ?_⟩
  · cases (s.ctx s.here).blocked <;> rfl
  · exact scuPaid_completed s _ size rfl (fun c hc => by simp [Ne.symm hc]) (fun c => by simp)

/-! ### Condition registers (06 R129, R139) -/

theorem cond_setCond (x : Ctx) (d i : Nat) (v : Bool) (hi : i < 16) :
    (x.setCond d v).cond i = if i = d ∧ d ≠ 15 then v else x.cond i := by
  by_cases h15 : d = 15
  · simp [Ctx.setCond, h15]
  · by_cases hid : i = d
    · subst hid; simp [Ctx.setCond, Ctx.cond, h15, hi]
    · simp [Ctx.setCond, Ctx.cond, h15, hid, Ne.symm hid]

theorem cond_setPair (x : Ctx) (kp i : Nat) (v : Bool) (hi : i < 16) :
    (x.setPair kp v).cond i = if i = 2 * kp then v else if i = 2 * kp + 1 ∧ i ≠ 15 then !v else x.cond i := by
  rw [Ctx.setPair, cond_setCond _ _ _ _ hi, cond_setCond _ _ _ _ hi]
  grind

theorem setCond_frame (x : Ctx) (d : Nat) (v : Bool) : { x with k := (x.setCond d v).k } = x.setCond d v := by
  unfold Ctx.setCond; split <;> rfl

theorem setPair_frame (x : Ctx) (kp : Nat) (v : Bool) : { x with k := (x.setPair kp v).k } = x.setPair kp v := by
  rw [Ctx.setPair, ← setCond_frame (x.setCond _ _), ← setCond_frame x]

/-- A context of which an instruction of two halfwords updated the condition registers only. -/
theorem wroteCond_complete {x y : Ctx} {f : Nat → Bool} (hf : ∀ i, i < 16 → y.cond i = f i) (hk : { x with k := y.k } = y) :
    x.WroteCond (y.complete 2) f :=
  ⟨hf, by rw [← hk]; rfl⟩

/-! ### The conditions of 06 R139 -/

/-- The four conditions of CMP and CMPI, in the order of `cc`. -/
theorem condSigned_getElem (x z : Word) {cc : Nat} (h : cc < 4) :
    [x == z, x != z, decide (x.toInt < z.toInt), decide (z.toInt ≤ x.toInt)][cc]? = some (condSigned cc x z) := by
  match cc, h with
  | 0, _ | 1, _ | 2, _ => rfl
  | 3, _ => simp [condSigned, BitVec.slt, ← decide_not]

/-- The four conditions of CMPN and CMPIN, in the order of `cc`. -/
theorem condNatural_getElem (x z : Word) {cc : Nat} (h : cc < 4) :
    [decide (x.toNat < z.toNat), decide (z.toNat ≤ x.toNat), (x &&& z) != 0, (x &&& z) == 0][cc]? = some (condNatural cc x z) := by
  match cc, h with
  | 0, _ | 2, _ | 3, _ => rfl
  | 1, _ => simp [condNatural, BitVec.ult, ← decide_not]

/-- A sign-extended field is the library's sign extension (05 R123). -/
theorem sx_eq_signExtend (w i : Nat) (hw : 0 < w) : sx w i = (BitVec.ofNat w i).signExtend 64 := by
  have h2 : 2 ^ w = 2 * 2 ^ (w - 1) := by rw [← Nat.pow_succ']; congr 1; omega
  rw [sx, wordOfInt, BitVec.signExtend, signed, BitVec.toInt_eq_toNat_cond, BitVec.toNat_ofNat]
  congr 1
  split <;> split <;> omega

/-! ### Compares and KOP -/

/-- A compare whose condition is row `cc` of a table writes that row and its complement into the pair. -/
theorem compare_spec {s : State} {gd : Guard} {touch : List Nat} {kp cc : Nat} {table : List Bool} (f : Ctx → Bool)
    (h : s.runs gd touch) (hrow : table[cc]? = some (f (s.ctx s.here))) :
    ∃ t v, s.compare gd touch kp f = .next t ∧ table[cc]? = some v ∧ s.ScuOnly t
      ∧ (s.ctx s.here).WroteCond (t.ctx s.here)
          (fun j => if j = 2 * kp then v else if j = 2 * kp + 1 ∧ j ≠ 15 then !v else (s.ctx s.here).cond j) := by
  obtain ⟨t, ht, hctx, honly⟩ := scu_modCtx_spec s gd touch 2 (fun x => x.setPair kp (f x)) h
  exact ⟨t, _, ht, hrow, honly, hctx ▸ wroteCond_complete (fun i hi => cond_setPair _ _ _ _ hi) (setPair_frame _ _ _)⟩

theorem kop_spec {s : State} {gd : Guard} (d a b : Nat) (f : Bool → Bool → Bool) (h : s.runs gd []) :
    ∃ t, s.kop gd d a b f = .next t ∧ s.ScuOnly t
      ∧ (s.ctx s.here).WroteCond (t.ctx s.here) (fun j => if j = d ∧ d ≠ 15
          then f ((s.ctx s.here).cond a) ((s.ctx s.here).cond b) else (s.ctx s.here).cond j) := by
  obtain ⟨t, ht, hctx, honly⟩ := scu_modCtx_spec s gd [] 2 (fun x => x.setCond d (f (x.cond a) (x.cond b))) h
  exact ⟨t, ht, honly, hctx ▸ wroteCond_complete (fun i hi => cond_setCond _ _ _ _ hi) (setCond_frame _ _ _)⟩

/-- Settles O4: each compare is `compare_spec` with its row of R139's table, each KOP is `kop_spec`. -/
theorem conditionOperations : Obligations.ConditionOperations := by
  unfold Obligations.ConditionOperations
  intro s gd
  refine ⟨fun a b i kp hab _ _ cc hcc => ?_, fun d a b h _ => ?_⟩
  · have ha : s.runs gd [a] := hab.mono (by simp)
    simp only [List.forall_mem_cons, List.not_mem_nil, false_imp_iff, implies_true, and_true]
    exact ⟨compare_spec (fun x => condSigned cc (x.reg a) (x.reg b)) hab (condSigned_getElem _ _ hcc),
      compare_spec (fun x => condNatural cc (x.reg a) (x.reg b)) hab (condNatural_getElem _ _ hcc),
      compare_spec (fun x => condSigned cc (x.reg a) (sx 10 i)) ha (sx_eq_signExtend 10 i (by decide) ▸ condSigned_getElem _ _ hcc),
      compare_spec (fun x => condNatural cc (x.reg a) (zx i)) ha (condNatural_getElem _ _ hcc)⟩
  · simp only [List.forall_mem_cons, List.not_mem_nil, false_imp_iff, implies_true, and_true]
    exact ⟨kop_spec d a b (fun x y => x && y) h, kop_spec d a b (fun x y => x || y) h, kop_spec d a b (fun x y => x != y) h,
      kop_spec d a b (fun x y => x && !y) h⟩

/-! ### The values of 06 R134 -/

/-- Shifting in the sign is dividing by a power of two, rounded down. -/
theorem sshiftRight_eq_ofInt_div (x : Word) (n : Nat) : x.sshiftRight n = BitVec.ofInt 64 (x.toInt / 2 ^ n) := by
  rw [BitVec.sshiftRight, Int.shiftRight_eq_div_pow]; norm_cast

theorem rotWord_eq_rotateRight (x : Word) {n : Nat} (h : n < 64) : rotWord x n = x.rotateRight n :=
  (BitVec.rotateRight_eq_rotateRightAux_of_lt h).symm

theorem minS_eq (x y : Word) : minS x y = if x.toInt ≤ y.toInt then x else y := by
  simp only [minS, BitVec.slt, decide_eq_true_eq, ← Int.not_le, ite_not]

theorem maxS_eq (x y : Word) : maxS x y = if x.toInt ≤ y.toInt then y else x := by
  simp only [maxS, BitVec.slt, decide_eq_true_eq]
  by_cases heq : x.toInt = y.toInt
  · rw [BitVec.eq_of_toInt_eq heq, ite_self, ite_self]
  · have hlt : x.toInt < y.toInt ↔ x.toInt ≤ y.toInt := by omega
    simp only [hlt]

theorem minU_eq (x y : Word) : minU x y = if x.toNat ≤ y.toNat then x else y := by
  simp only [minU, BitVec.ult, decide_eq_true_eq, ← Nat.not_le, ite_not]

theorem maxU_eq (x y : Word) : maxU x y = if x.toNat ≤ y.toNat then y else x := by
  simp only [maxU, BitVec.ult, decide_eq_true_eq]
  by_cases heq : x.toNat = y.toNat
  · rw [BitVec.eq_of_toNat_eq heq, ite_self, ite_self]
  · have hlt : x.toNat < y.toNat ↔ x.toNat ≤ y.toNat := by omega
    simp only [hlt]

theorem clzFrom_le (x : Word) (n : Nat) : clzFrom x n ≤ n := by
  induction n with
  | zero => exact Nat.le_refl 0
  | succ n ih => rw [clzFrom]; split <;> omega

theorem getLsbD_of_clzFrom {x : Word} {n i : Nat} (hlo : n - clzFrom x n ≤ i) (hhi : i < n) : x.getLsbD i = false := by
  induction n with
  | zero => omega
  | succ n ih =>
    have := clzFrom_le x n
    rw [clzFrom] at hlo
    split at hlo
    · omega
    · next hbit =>
      by_cases hin : i = n
      · subst hin; exact Bool.eq_false_iff.mpr hbit
      · exact ih (by omega) (by omega)

theorem getLsbD_below_clzFrom {x : Word} {n : Nat} (h : clzFrom x n < n) : x.getLsbD (n - 1 - clzFrom x n) = true := by
  induction n with
  | zero => omega
  | succ n ih =>
    rw [clzFrom] at h ⊢
    split
    · next hbit => exact hbit
    · next hbit =>
      rw [if_neg hbit] at h
      rw [show n + 1 - 1 - (1 + clzFrom x n) = n - 1 - clzFrom x n by omega]
      exact ih (by omega)

theorem ctzFrom_le (x : Word) (lo n : Nat) : ctzFrom x lo n ≤ n := by
  induction n generalizing lo with
  | zero => exact Nat.le_refl 0
  | succ n ih => have := ih (lo + 1); rw [ctzFrom]; split <;> omega

theorem getLsbD_of_ctzFrom {x : Word} {lo n i : Nat} (hlo : lo ≤ i) (hhi : i < lo + ctzFrom x lo n) : x.getLsbD i = false := by
  induction n generalizing lo with
  | zero => rw [ctzFrom] at hhi; omega
  | succ n ih =>
    rw [ctzFrom] at hhi
    split at hhi
    · omega
    · next hbit =>
      by_cases hin : i = lo
      · subst hin; exact Bool.eq_false_iff.mpr hbit
      · exact ih (lo := lo + 1) (by omega) (by omega)

theorem getLsbD_at_ctzFrom {x : Word} {lo n : Nat} (h : ctzFrom x lo n < n) : x.getLsbD (lo + ctzFrom x lo n) = true := by
  induction n generalizing lo with
  | zero => omega
  | succ n ih =>
    rw [ctzFrom] at h ⊢
    split
    · next hbit => exact hbit
    · next hbit =>
      rw [if_neg hbit] at h
      rw [← Nat.add_assoc]
      exact ih (by omega)

theorem popFrom_eq_countP (x : Word) (n : Nat) : popFrom x n = (List.range n).countP x.getLsbD := by
  induction n with
  | zero => rfl
  | succ n ih =>
    rw [popFrom, ih, List.range_succ, List.countP_append, List.countP_singleton, Nat.add_comm]
    rfl

/-! ### The values of 06 R138 -/

/-- The upper half of a product of 128 bits. -/
theorem extractLsb'_ofInt_upper (z : Int) : (BitVec.ofInt 128 z).extractLsb' 64 64 = BitVec.ofInt 64 (z / 2 ^ 64) := by
  apply BitVec.eq_of_toNat_eq
  simp only [BitVec.extractLsb'_toNat, BitVec.toNat_ofInt, Nat.shiftRight_eq_div_pow]
  omega

theorem mulhS_eq (x y : Word) : mulhS x y = (x.signExtend 128 * y.signExtend 128).extractLsb' 64 64 := by
  rw [BitVec.signExtend, BitVec.signExtend, ← BitVec.ofInt_mul, extractLsb'_ofInt_upper]; rfl

theorem mulhU_eq (x y : Word) : mulhU x y = (x.setWidth 128 * y.setWidth 128).extractLsb' 64 64 := by
  apply BitVec.eq_of_toNat_eq
  have hlt : x.toNat * y.toNat < 2 ^ 64 * 2 ^ 64 := Nat.mul_lt_mul'' x.isLt y.isLt
  have hx : x.toNat % 2 ^ 128 = x.toNat := Nat.mod_eq_of_lt (by omega)
  have hy : y.toNat % 2 ^ 128 = y.toNat := Nat.mod_eq_of_lt (by omega)
  simp only [mulhU, zx, BitVec.extractLsb'_toNat, BitVec.toNat_mul, BitVec.toNat_setWidth, BitVec.toNat_ofNat, hx, hy,
    Nat.shiftRight_eq_div_pow]
  rw [Nat.mod_eq_of_lt (b := 2 ^ 128) hlt]

theorem divS_eq (x y : Word) :
    divS x y = if y = 0 then BitVec.allOnes 64 else if x = 0x8000000000000000 ∧ y = BitVec.allOnes 64 then 0x8000000000000000
      else BitVec.ofInt 64 (x.toInt.tdiv y.toInt) := by
  rw [divS]
  by_cases hlow : x = 0x8000000000000000 ∧ y = BitVec.allOnes 64
  · obtain ⟨rfl, rfl⟩ := hlow; decide
  · rw [if_neg hlow]; rfl

theorem remS_eq (x y : Word) :
    remS x y = if y = 0 then x else if x = 0x8000000000000000 ∧ y = BitVec.allOnes 64 then 0
      else BitVec.ofInt 64 (x.toInt.tmod y.toInt) := by
  rw [remS]
  by_cases hlow : x = 0x8000000000000000 ∧ y = BitVec.allOnes 64
  · obtain ⟨rfl, rfl⟩ := hlow; decide
  · rw [if_neg hlow]; rfl

theorem divU_eq (x y : Word) : divU x y = if y = 0 then BitVec.allOnes 64 else x / y := by
  rw [divU, BitVec.udiv_def]; rfl

theorem remU_eq (x y : Word) : remU x y = if y = 0 then x else x % y := by
  rw [remU, BitVec.umod_def]; rfl

/-! ### The operations of registers -/

/-- A three-register operation writes its value, given as `v`. -/
theorem alu_spec {s : State} {gd : Guard} {d a b : Nat} (f : Word → Word → Word) {v : Word} (h : s.runs gd [d, a, b]) (hd : d < 32)
    (hv : f ((s.ctx s.here).reg a) ((s.ctx s.here).reg b) = v) :
    ∃ t, s.alu gd d a b f = .next t ∧ (s.ctx s.here).WroteReg (t.ctx s.here) d v 2 ∧ s.ScuOnly t :=
  hv ▸ scuWrite_spec s gd [d, a, b] 2 d _ h hd

/-- Settles O2: each form is `alu_spec` with its row of R138's tables. -/
theorem multiplyDivide : Obligations.MultiplyDivide := by
  unfold Obligations.MultiplyDivide
  intro s gd d a b h hd
  simp only [List.forall_mem_cons, List.not_mem_nil, false_imp_iff, implies_true, and_true]
  exact ⟨alu_spec (· * ·) h hd rfl, alu_spec mulhS h hd (mulhS_eq _ _), alu_spec mulhU h hd (mulhU_eq _ _),
    alu_spec divS h hd (divS_eq _ _), alu_spec divU h hd (divU_eq _ _), alu_spec remS h hd (remS_eq _ _), alu_spec remU h hd (remU_eq _ _)⟩

/-- Settles O1: each operation of three registers is `alu_spec` with its row of R134's table; CLZ, CTZ and POPC write what their
recursion over the bits counts. -/
theorem aluOperations : Obligations.AluOperations := by
  unfold Obligations.AluOperations
  intro s gd d a b h hd x y n
  have hda : s.runs gd [d, a] := h.mono (by simp)
  have hn : n < 64 := Nat.mod_lt _ (by decide)
  refine ⟨?_, ?_, ?_, ?_⟩
  · simp only [List.forall_mem_cons, List.not_mem_nil, false_imp_iff, implies_true, and_true]
    exact ⟨alu_spec (· + ·) h hd rfl, alu_spec (· - ·) h hd rfl, alu_spec (· &&& ·) h hd rfl, alu_spec (· ||| ·) h hd rfl,
      alu_spec (· ^^^ ·) h hd rfl, alu_spec (fun x y => x &&& ~~~y) h hd rfl, alu_spec (fun x y => x <<< shamt y) h hd rfl,
      alu_spec (fun x y => x >>> shamt y) h hd rfl, alu_spec (fun x y => x.sshiftRight (shamt y)) h hd (sshiftRight_eq_ofInt_div _ _),
      alu_spec (fun x y => rotWord x (shamt y)) h hd (rotWord_eq_rotateRight _ hn), alu_spec minS h hd (minS_eq _ _),
      alu_spec maxS h hd (maxS_eq _ _), alu_spec minU h hd (minU_eq _ _), alu_spec maxU h hd (maxU_eq _ _)⟩
  · obtain ⟨t, ht, hreg, honly⟩ := scuWrite_spec s gd [d, a] 2 d (fun c => zx (clzFrom (c.reg a) 64)) hda hd
    refine ⟨t, clzFrom x 64, ht, clzFrom_le x 64, fun i hi => ?_, getLsbD_below_clzFrom, hreg, honly⟩
    by_cases h64 : i < 64
    · exact getLsbD_of_clzFrom hi h64
    · exact BitVec.getLsbD_of_ge x i (by omega)
  · obtain ⟨t, ht, hreg, honly⟩ := scuWrite_spec s gd [d, a] 2 d (fun c => zx (ctzFrom (c.reg a) 0 64)) hda hd
    refine ⟨t, ctzFrom x 0 64, ht, ctzFrom_le x 0 64, fun i hi => ?_, fun hm => ?_, hreg, honly⟩
    · exact getLsbD_of_ctzFrom (n := 64) (Nat.zero_le i) (by omega)
    · simpa using getLsbD_at_ctzFrom hm
  · obtain ⟨t, ht, hreg, honly⟩ := scuWrite_spec s gd [d, a] 2 d (fun c => zx (popFrom (c.reg a) 64)) hda hd
    exact ⟨t, ht, popFrom_eq_countP x 64 ▸ hreg, honly⟩

end Sys2Proof.Machine
